-- ==== Sys2Proof/Word.lean ====
section
/-! DEFINITION. The word types of the codec block (30_encoding.md R80, R91; 40_crc.md R120). -/

namespace Sys2Proof

/-- One byte of an input sequence or of a frame buffer (00_scope.md R10). -/
abbrev Byte := BitVec 8

/-- A command word `CW` (30_encoding.md R80, R89: exactly 64 bits). -/
abbrev CommandWord := BitVec 64

/-- A 29-bit extended CAN identifier (30_encoding.md R91). Its 32-bit container's bits [31:29] are 0 on every
identifier the block produces and ignored on every one it reads, so the model holds the 29 bits (log entry 9). -/
abbrev CanId := BitVec 29

/-- A CRC state (40_crc.md R120: 16 bits). -/
abbrev CrcState := BitVec 16

end Sys2Proof
end

