-- ==== Sys2Proof/Syntax.lean ====
section
/-! DEFINITION. The commands of the block, one constructor per row of opcode_table.json (30_encoding.md R82).
Operands are the command-word fields the row uses, under the aliases of R101; the input sequence IB is not part of the
command word (20_memory.md R51) and is read from the host port. -/

namespace Sys2Proof

/-- The nineteen commands. `kind` is the raw two-bit KIND field, whose value 3 is illegal (30_encoding.md R85) and is
what `Instr.wellFormed` refuses. -/
inductive Instr where
  /-- CRC_UPDATE, 40_crc.md R121 -/
  | crcUpdate (byte : BitVec 8) (crc : BitVec 16)
  /-- CRC_COMPUTE, 40_crc.md R123 -/
  | crcCompute (initial : BitVec 16) (declared : BitVec 16)
  /-- DLC_TO_LEN, 41_dlc.md R133 -/
  | dlcToLen (dlc : BitVec 8)
  /-- LEN_TO_DLC, 41_dlc.md R134 -/
  | lenToDlc (n : BitVec 16)
  /-- ROUND_UP_LEN, 41_dlc.md R135 -/
  | roundUpLen (n : BitVec 16)
  /-- MAKE_MESSAGE_ID, 42_can_id.md R145 -/
  | makeMessageId (src : BitVec 8) (subject : BitVec 16)
  /-- MAKE_SERVICE_ID, 42_can_id.md R146 -/
  | makeServiceId (src dst : BitVec 8) (service : BitVec 16) (isRequest : Bool)
  /-- MAKE_CAN_ID, 42_can_id.md R147 -/
  | makeCanId (localNode remoteNode : BitVec 8) (portId : BitVec 16) (priority : BitVec 3) (kind : BitVec 2)
  /-- UNPACK_ID, 42_can_id.md R149 -/
  | unpackId (id : BitVec 32)
  /-- MAKE_TAIL, 43_tail_byte.md R171 -/
  | makeTail (tid : BitVec 8) (startBit endBit toggle : Bool)
  /-- DECODE_TAIL, 43_tail_byte.md R173 -/
  | decodeTail (tail : BitVec 8)
  /-- CREATE_PACKET, 44_fragmenter.md R187 -/
  | createPacket (tid remoteNode : BitVec 8) (portId : BitVec 16) (priority : BitVec 3) (kind : BitVec 2)
  /-- SEND_MESSAGE, 44_fragmenter.md R188 -/
  | sendMessage (subject : BitVec 16)
  /-- SEND_REQUEST, 44_fragmenter.md R189 -/
  | sendRequest (dst : BitVec 8) (service : BitVec 16)
  /-- SEND_RESPONSE, 44_fragmenter.md R190 -/
  | sendResponse (dst : BitVec 8) (service : BitVec 16)
  /-- PARSE_BUFFER, 45_rx_parser.md R224 -/
  | parseBuffer
  /-- INIT, 46_control.md R240 -/
  | init (node : BitVec 8) (mtu : BitVec 16)
  /-- SET_NODE_ID, 46_control.md R241 -/
  | setNodeId (node : BitVec 8)
  /-- READ_STATE, 46_control.md R242 -/
  | readState
deriving DecidableEq, Repr

end Sys2Proof
end

