-- ==== Sys2Proof/WellFormed.lean ====
section
/-! DEFINITION. Which commands are legal operand combinations: the one operand value the encoding can carry and the spec
calls illegal is KIND = 3 (30_encoding.md R85). Every other out-of-range operand is legal syntax whose command raises an
error of its own (R87). -/

namespace Sys2Proof

/-- A legal KIND field: 0 Message, 1 Request, 2 Response; 3 is illegal (30_encoding.md R85, R99). -/
def legalKind (kind : BitVec 2) : Bool := kind != 3

/-- A command that the decoder may produce (30_encoding.md R85): the two commands that use KIND do not have KIND = 3. -/
def Instr.wellFormed : Instr → Bool
  | .crcUpdate _ _ => true
  | .crcCompute _ _ => true
  | .dlcToLen _ => true
  | .lenToDlc _ => true
  | .roundUpLen _ => true
  | .makeMessageId _ _ => true
  | .makeServiceId _ _ _ _ => true
  | .makeCanId _ _ _ _ kind => legalKind kind
  | .unpackId _ => true
  | .makeTail _ _ _ _ => true
  | .decodeTail _ => true
  | .createPacket _ _ _ _ kind => legalKind kind
  | .sendMessage _ => true
  | .sendRequest _ _ => true
  | .sendResponse _ _ => true
  | .parseBuffer => true
  | .init _ _ => true
  | .setNodeId _ => true
  | .readState => true

end Sys2Proof
end

