-- ==== Sys2Proof/Decode.lean ====
section
/-! DEFINITION. The command decoder, total on every 64-bit word and rejecting by name, and the encoder
(30_encoding.md R80 to R89 and opcode_table.json). -/

namespace Sys2Proof

/-- Why a command word is rejected, in the order the block checks (30_encoding.md R88). Each is the error IllegalCommand
(60_exceptions.md R261). -/
inductive DecodeError where
  /-- an OPC value that R82 does not list (R84) -/
  | reservedOpcode
  /-- a set bit outside OPC and the opcode's fields (R83) -/
  | reservedBits
  /-- `KIND = 3` in a command that uses KIND (R85) -/
  | reservedKind
deriving DecidableEq, Repr

/-- The outcome of decoding one command word. -/
inductive Decoded where
  | command (i : Instr)
  | rejected (why : DecodeError)
deriving DecidableEq, Repr

/-! ## The fields of a command word (30_encoding.md R80, R81) -/

/-- `OPC = CW[7:0]` -/
def fieldOpc (w : CommandWord) : BitVec 8 := w.extractLsb' 0 8
/-- `A = CW[15:8]` -/
def fieldA (w : CommandWord) : BitVec 8 := w.extractLsb' 8 8
/-- `B = CW[23:16]` -/
def fieldB (w : CommandWord) : BitVec 8 := w.extractLsb' 16 8
/-- `P = CW[39:24]` -/
def fieldP (w : CommandWord) : BitVec 16 := w.extractLsb' 24 16
/-- `PRI = CW[42:40]` -/
def fieldPri (w : CommandWord) : BitVec 3 := w.extractLsb' 40 3
/-- `KIND = CW[44:43]` -/
def fieldKind (w : CommandWord) : BitVec 2 := w.extractLsb' 43 2
/-- `F0 = CW[45]` -/
def fieldF0 (w : CommandWord) : Bool := w.getLsbD 45
/-- `F1 = CW[46]` -/
def fieldF1 (w : CommandWord) : Bool := w.getLsbD 46
/-- `F2 = CW[47]` -/
def fieldF2 (w : CommandWord) : Bool := w.getLsbD 47
/-- `L = CW[63:48]` -/
def fieldL (w : CommandWord) : BitVec 16 := w.extractLsb' 48 16
/-- `X = CW[39:8]`, format X (R81) -/
def fieldX (w : CommandWord) : BitVec 32 := w.extractLsb' 8 32

/-! ## The opcode map -/

/-- One row of opcode_table.json: a word is legal for the row's opcode exactly when `(CW & mask) == match`
(30_encoding.md R83), and `build` assembles the command from the fields of R82. -/
structure OpcodeRow where
  opc : BitVec 8
  mask : CommandWord
  pattern : CommandWord
  build : CommandWord → Instr

/-- The row of an opcode, `none` for a reserved opcode (30_encoding.md R82, R84). -/
def opcodeRow (opc : BitVec 8) : Option OpcodeRow :=
  match opc with
  | 0x01#8 => some ⟨0x01, 0xFFFFFF0000FF00FF, 0x01, fun w => .crcUpdate (fieldA w) (fieldP w)⟩
  | 0x02#8 => some ⟨0x02, 0x0000FF0000FFFFFF, 0x02, fun w => .crcCompute (fieldP w) (fieldL w)⟩
  | 0x10#8 => some ⟨0x10, 0xFFFFFFFFFFFF00FF, 0x10, fun w => .dlcToLen (fieldA w)⟩
  | 0x11#8 => some ⟨0x11, 0xFFFFFF0000FFFFFF, 0x11, fun w => .lenToDlc (fieldP w)⟩
  | 0x12#8 => some ⟨0x12, 0xFFFFFF0000FFFFFF, 0x12, fun w => .roundUpLen (fieldP w)⟩
  | 0x20#8 => some ⟨0x20, 0xFFFFFF0000FF00FF, 0x20, fun w => .makeMessageId (fieldA w) (fieldP w)⟩
  | 0x21#8 => some ⟨0x21, 0xFFFFDF00000000FF, 0x21,
      fun w => .makeServiceId (fieldA w) (fieldB w) (fieldP w) (fieldF0 w)⟩
  | 0x22#8 => some ⟨0x22, 0xFFFFE000000000FF, 0x22,
      fun w => .makeCanId (fieldA w) (fieldB w) (fieldP w) (fieldPri w) (fieldKind w)⟩
  | 0x23#8 => some ⟨0x23, 0xFFFFFF00000000FF, 0x23, fun w => .unpackId (fieldX w)⟩
  | 0x30#8 => some ⟨0x30, 0xFFFF1FFFFFFF00FF, 0x30,
      fun w => .makeTail (fieldA w) (fieldF2 w) (fieldF1 w) (fieldF0 w)⟩
  | 0x31#8 => some ⟨0x31, 0xFFFFFFFFFFFF00FF, 0x31, fun w => .decodeTail (fieldA w)⟩
  | 0x40#8 => some ⟨0x40, 0xFFFFE000000000FF, 0x40,
      fun w => .createPacket (fieldA w) (fieldB w) (fieldP w) (fieldPri w) (fieldKind w)⟩
  | 0x41#8 => some ⟨0x41, 0xFFFFFF0000FFFFFF, 0x41, fun w => .sendMessage (fieldP w)⟩
  | 0x42#8 => some ⟨0x42, 0xFFFFFF000000FFFF, 0x42, fun w => .sendRequest (fieldB w) (fieldP w)⟩
  | 0x43#8 => some ⟨0x43, 0xFFFFFF000000FFFF, 0x43, fun w => .sendResponse (fieldB w) (fieldP w)⟩
  | 0x50#8 => some ⟨0x50, 0xFFFFFFFFFFFFFFFF, 0x50, fun _ => .parseBuffer⟩
  | 0x70#8 => some ⟨0x70, 0xFFFFFF0000FF00FF, 0x70, fun w => .init (fieldA w) (fieldP w)⟩
  | 0x71#8 => some ⟨0x71, 0xFFFFFFFFFFFF00FF, 0x71, fun w => .setNodeId (fieldA w)⟩
  | 0x72#8 => some ⟨0x72, 0xFFFFFFFFFFFFFFFF, 0x72, fun _ => .readState⟩
  | _ => none

/-- The decoder, in the order of 30_encoding.md R88: opcode (R84), reserved bits (R83), KIND (R85). -/
def decode (w : CommandWord) : Decoded :=
  match opcodeRow (fieldOpc w) with
  | none => .rejected .reservedOpcode
  | some row =>
    if w &&& row.mask = row.pattern then
      if (row.build w).wellFormed then .command (row.build w) else .rejected .reservedKind
    else .rejected .reservedBits

/-! ## The encoder -/

/-- A format R word from its eight fields, most significant first (30_encoding.md R80). -/
def assembleR (l : BitVec 16) (f : BitVec 3) (kind : BitVec 2) (pri : BitVec 3) (p : BitVec 16) (b a opc : BitVec 8) :
    CommandWord :=
  l ++ f ++ kind ++ pri ++ p ++ b ++ a ++ opc

/-- A format X word (30_encoding.md R81). -/
def assembleX (x : BitVec 32) (opc : BitVec 8) : CommandWord :=
  0#24 ++ x ++ opc

/-- The three-bit field `F` from `F2`, `F1`, `F0` (30_encoding.md R80, R86). -/
def flagField (f2 f1 f0 : Bool) : BitVec 3 :=
  BitVec.ofBool f2 ++ BitVec.ofBool f1 ++ BitVec.ofBool f0

/-- The command word of an instruction: its opcode and fields at the places of 30_encoding.md R80 to R82, every other
bit 0 (R83). -/
def encode : Instr → CommandWord
  | .crcUpdate byte crc => assembleR 0 0 0 0 crc 0 byte 0x01
  | .crcCompute initial declared => assembleR declared 0 0 0 initial 0 0 0x02
  | .dlcToLen dlc => assembleR 0 0 0 0 0 0 dlc 0x10
  | .lenToDlc n => assembleR 0 0 0 0 n 0 0 0x11
  | .roundUpLen n => assembleR 0 0 0 0 n 0 0 0x12
  | .makeMessageId src subject => assembleR 0 0 0 0 subject 0 src 0x20
  | .makeServiceId src dst service isRequest => assembleR 0 (flagField false false isRequest) 0 0 service dst src 0x21
  | .makeCanId localNode remoteNode portId priority kind =>
      assembleR 0 0 kind priority portId remoteNode localNode 0x22
  | .unpackId id => assembleX id 0x23
  | .makeTail tid startBit endBit toggle => assembleR 0 (flagField startBit endBit toggle) 0 0 0 0 tid 0x30
  | .decodeTail tail => assembleR 0 0 0 0 0 0 tail 0x31
  | .createPacket tid remoteNode portId priority kind => assembleR 0 0 kind priority portId remoteNode tid 0x40
  | .sendMessage subject => assembleR 0 0 0 0 subject 0 0 0x41
  | .sendRequest dst service => assembleR 0 0 0 0 service dst 0 0x42
  | .sendResponse dst service => assembleR 0 0 0 0 service dst 0 0x43
  | .parseBuffer => assembleR 0 0 0 0 0 0 0 0x50
  | .init node mtu => assembleR 0 0 0 0 mtu 0 node 0x70
  | .setNodeId node => assembleR 0 0 0 0 0 0 node 0x71
  | .readState => assembleR 0 0 0 0 0 0 0 0x72

/-! ## The host's question -/

/-- The number `w` of `nbits` bits as a command word, bit 0 its least significant bit; bits above `nbits` are 0.
A number that does not fit the 64 bits of R89 is no command word. The command word comes over the host port as one
number, so no byte order enters (20_memory.md R55; log entry 6). -/
def tableWord (nbits w : Nat) : Option CommandWord :=
  let v := w % 2 ^ nbits
  if v < 2 ^ 64 then some (BitVec.ofNat 64 v) else none

/-- The instruction the decoder reads from the table word `w` of `nbits` bits, `none` where it rejects it. -/
def decodeTableWord (nbits w : Nat) : Option Instr :=
  match tableWord nbits w with
  | none => none
  | some cw =>
    match decode cw with
    | .command i => some i
    | .rejected _ => none

end Sys2Proof
end

