-- ==== Sys2Proof/Config.lean ====
section
/-! DEFINITION. The implementation parameters of 00_scope.md R7. They are plain data that State carries and no step
changes, so that a statement about every state is a statement about every permitted parameter value (log entry 2). -/

namespace Sys2Proof

/-- `TID_MODULUS`, OPEN in 00_scope.md R7: 256 or 32 (92 D10, 90_conflicts.md C2). -/
inductive TidModulus where
  | wrap256
  | wrap32
deriving DecidableEq, Repr

/-- `SUBJECT_RX_MSB` of 00_scope.md R7: 21 or 20 (92 D16, 90_conflicts.md C6). -/
inductive SubjectRxMsb where
  | bit21
  | bit20
deriving DecidableEq, Repr

/-- The parameters of 00_scope.md R7 that an implementation fixes (MTU is a register, not one of them). -/
structure Config where
  /-- modulus of the transfer-id counter -/
  tidModulus : TidModulus
  /-- top bit of the subject-id field the unpacker extracts -/
  subjectRxMsb : SubjectRxMsb
  /-- numeric value of the priority level Nominal, any value of 0..7 -/
  prioNominal : BitVec 3
  /-- largest input byte sequence a command may carry -/
  ibufCap : Nat
  /-- largest number of output records -/
  outCap : Nat
deriving DecidableEq, Repr

/-- The bounds that 00_scope.md R7 and 92 D21 put on the two capacities:
`72 <= IBUF_CAP <= 65535` and `OUT_CAP >= max(IBUF_CAP / 16, ceil((IBUF_CAP + 2) / 7))`. -/
abbrev Config.wf (c : Config) : Prop :=
  72 ≤ c.ibufCap ∧ c.ibufCap ≤ 65535 ∧ c.ibufCap / 16 ≤ c.outCap ∧ (c.ibufCap + 2 + 6) / 7 ≤ c.outCap

/-- The parameter values the model runs with after `State.reset`: the spec's defaults where it gives one
(`TID_MODULUS` 256, `SUBJECT_RX_MSB` 21, `PRIO_NOMINAL` 4), and for the two capacities, which have no default,
the largest permitted `IBUF_CAP` and the least `OUT_CAP` that goes with it.
DESIGN CHOICE (the capacities: unsafe if a statement rests on them; log entry 3). -/
def Config.default : Config :=
  { tidModulus := .wrap256, subjectRxMsb := .bit21, prioNominal := 4, ibufCap := 65535, outCap := 9363 }

end Sys2Proof
end

