-- ==== Sys2Proof/Machine/State.lean ====
section
/-! DEFINITION. The architectural state of the block (10_state.md R20 to R26), the records OUT holds (30_encoding.md R97
to R99), the host's moves (20_memory.md R66), and the state after reset (10_state.md R33). -/

namespace Sys2Proof.Machine

/-- The transfer kind (00_scope.md R13, 30_encoding.md R99). -/
inductive TransferKind where
  | message
  | request
  | response
deriving DecidableEq, Repr

/-- The frame type (00_scope.md R13, 30_encoding.md R99). -/
inductive FrameType where
  | single
  | multiStart
  | multiEnd
  | multiInProcess
deriving DecidableEq, Repr

/-- The error kinds of 60_exceptions.md R260 (codes 1 to 7 in this order). -/
inductive ErrorKind where
  | invalidArgument
  | invalidFrameSize
  | invalidFrameLength
  | invalidCanId
  | invalidState
  | lengthMismatch
  | illegalCommand
deriving DecidableEq, Repr

/-- An outbound frame record (30_encoding.md R97): `data` is a buffer of exactly MTU bytes, of which the first `len`
are valid, the last of those being the tail byte. -/
structure OutboundFrame where
  xid : CanId
  len : Nat
  data : List Byte
deriving DecidableEq, Repr

/-- An inbound frame record (30_encoding.md R98): `payload` is a buffer of exactly MTU bytes, of which the first
`payloadLen` are the frame's data bytes without the tail byte. -/
structure InboundFrame where
  xid : CanId
  priority : BitVec 3
  kind : TransferKind
  portId : BitVec 16
  sourceNodeId : BitVec 8
  destinationNodeId : BitVec 8
  transferId : BitVec 5
  startBit : Bool
  endBit : Bool
  toggle : Bool
  frameType : FrameType
  dlc : BitVec 4
  payloadLen : BitVec 7
  payload : List Byte
deriving DecidableEq, Repr

/-- One element of OUT (10_state.md R26). -/
inductive OutRecord where
  | outbound (f : OutboundFrame)
  | inbound (f : InboundFrame)
deriving DecidableEq, Repr

/-- What the host can do to the block between steps (20_memory.md R66). Reading STATUS, RES and OUT is no move here: it
changes nothing (R59). -/
inductive HostMove where
  /-- issue a command word with its input sequence IB -/
  | command (cw : CommandWord) (ib : List Byte)
  /-- raise a reset (70_reset_and_hazards.md R300) -/
  | reset
deriving DecidableEq, Repr

/-- The state of the machine. The first six fields are the block's whole architectural state (10_state.md R20); `port`
and `cfg` are the model's own (log entries 1 and 2). -/
structure State where
  /-- `NODE_ID`, 10_state.md R21 -/
  nodeId : BitVec 8
  /-- `MTU`, 10_state.md R22 -/
  mtu : BitVec 7
  /-- `TID`, 10_state.md R23 -/
  tid : BitVec 8
  /-- `STATUS`, 10_state.md R24 -/
  status : BitVec 8
  /-- `RES`, 10_state.md R25 -/
  res : BitVec 64
  /-- `OUT`, 10_state.md R26 -/
  out : List OutRecord
  /-- MODEL: the host's moves not yet completed, the one in progress at the head (20_memory.md R60, 10_state.md R31) -/
  port : List HostMove
  /-- MODEL: the implementation parameters of 00_scope.md R7, changed by no step -/
  cfg : Config
deriving DecidableEq, Repr

/-- The block has no faults: an error is a result code written at the end of the failing command, nothing is trapped, and
there is no stuck or halted state (60_exceptions.md R265). So no constructor: nothing raises a fault (log entry 7). -/
inductive Fault where
deriving DecidableEq, Repr

/-- Why a step may give no next state. -/
inductive Refusal where
  /-- Raised by `exec`'s arm of an instruction that has no meaning yet (none is left). Safe: no claim about a next
  state holds of it. -/
  | notModelled (mnemonic : String)
  /-- Raised by `step` when the host's move carries an input sequence longer than IBUF_CAP, which the host port does
  not admit (20_memory.md R51, 93 I7 'refuse'). Safe: the move cannot be made on the hardware (log entry 4). -/
  | inputTooLong
deriving DecidableEq, Repr

/-- The state after reset (10_state.md R33), with no host move pending and the default parameters. -/
def State.reset : State :=
  { nodeId := 0xFF
    mtu := 8
    tid := 0
    status := 0
    res := 0
    out := []
    port := []
    cfg := Config.default }

end Sys2Proof.Machine
end

