-- ==== Sys2Proof/Machine/Flags.lean ====
section
/-! DEFINITION. The result codes of STATUS (60_exceptions.md R260) and the numeric codes of the enumerations
(30_encoding.md R99). The block has no condition codes or flags of its own (10_state.md R30); the start and end bits of a
tail byte are data, from which the frame type is derived (43_tail_byte.md R172). -/

namespace Sys2Proof.Machine

/-- The code STATUS holds after a command that succeeded (60_exceptions.md R260). -/
abbrev statusOk : BitVec 8 := 0

/-- The code an error writes to STATUS (60_exceptions.md R260). -/
def errorCode : ErrorKind → BitVec 8
  | .invalidArgument => 1
  | .invalidFrameSize => 2
  | .invalidFrameLength => 3
  | .invalidCanId => 4
  | .invalidState => 5
  | .lengthMismatch => 6
  | .illegalCommand => 7

/-- The two-bit code of a transfer kind (30_encoding.md R99). -/
def kindCode : TransferKind → BitVec 2
  | .message => 0
  | .request => 1
  | .response => 2

/-- The two-bit code of a frame type (30_encoding.md R99). -/
def frameTypeCode : FrameType → BitVec 2
  | .single => 0
  | .multiStart => 1
  | .multiEnd => 2
  | .multiInProcess => 3

/-- The frame type "derived from start/end flags" (43_tail_byte.md R172). -/
def frameTypeOf (startBit endBit : Bool) : FrameType :=
  match startBit, endBit with
  | true, true => .single
  | true, false => .multiStart
  | false, true => .multiEnd
  | false, false => .multiInProcess

end Sys2Proof.Machine
end

