-- ==== Sys2Proof/Machine/Operands.lean ====
section
/-! DEFINITION. What the operands of a command mean: node-id predicates (42_can_id.md R142), operand ranges (00_scope.md
R8), the KIND operand (30_encoding.md R99), the legal MTU values (10_state.md R22), and the bytes of an input sequence
(00_scope.md R10, R11). -/

namespace Sys2Proof.Machine

/-- `NODE_ID_MAX` (00_scope.md R8). -/
abbrev nodeIdMax : Nat := 127

/-- `SUBJECT_ID_MAX` (00_scope.md R8). -/
abbrev subjectIdMax : Nat := 8191

/-- `SERVICE_ID_MAX` (00_scope.md R8). -/
abbrev serviceIdMax : Nat := 511

/-- `UNSET`, the node-id value the block produces for an unset node (00_scope.md R8). -/
abbrev unsetNode : BitVec 8 := 0xFF

/-- A node-id value is valid when it is at most 127; otherwise it is unset (anonymous) (42_can_id.md R142). -/
def validNode (v : BitVec 8) : Bool := decide (v.toNat ≤ nodeIdMax)

/-- A subject id a message may carry (00_scope.md R8). -/
def validSubject (p : BitVec 16) : Bool := decide (p.toNat ≤ subjectIdMax)

/-- A service id a request or response may carry (00_scope.md R8). -/
def validService (p : BitVec 16) : Bool := decide (p.toNat ≤ serviceIdMax)

/-- The transfer kind a KIND field stands for; 3 stands for none (30_encoding.md R85, R99). -/
def kindOfCode (kind : BitVec 2) : Option TransferKind :=
  match kind with
  | 0#2 => some .message
  | 1#2 => some .request
  | 2#2 => some .response
  | _ => none

/-- The legal MTU values (10_state.md R22). -/
def legalMtus : List Nat := [8, 12, 16, 20, 24, 32, 48, 64]

/-- Is a value a legal MTU (10_state.md R22)? -/
def legalMtu (n : Nat) : Bool := legalMtus.contains n

/-- `zeros(n)` (00_scope.md R10). -/
def zeros (n : Nat) : List Byte := List.replicate n 0

/-- The byte of an input sequence at an index. No rule reads beyond the sequence (log entry 12). -/
def byteAt (ib : List Byte) (i : Nat) : Byte := ib.getD i 0

/-- `MemRead(i, n)`, the `n` bytes from index `i` as a little-endian number (00_scope.md R11). -/
def memRead (ib : List Byte) (i : Nat) : Nat → Nat
  | 0 => 0
  | n + 1 => (byteAt ib i).toNat + 256 * memRead ib (i + 1) n

/-- A little-endian 32-bit field of a raw record (20_memory.md R53, R54). -/
def readField32 (ib : List Byte) (i : Nat) : BitVec 32 := BitVec.ofNat 32 (memRead ib i 4)

/-- The sub-sequence `s[a..b)` (00_scope.md R10). -/
def slice (s : List Byte) (a b : Nat) : List Byte := (s.drop a).take (b - a)

end Sys2Proof.Machine
end

