-- ==== Sys2Proof/Machine/Ops.lean ====
section
/-! DEFINITION. The shared operations of the machine: how a command succeeds, how it takes an error (60_exceptions.md
R262: the block's one error entry, with nothing saved and nothing to return from, R265 and R266), the input sequence of the
command in progress, and what a step does to the host port. -/

namespace Sys2Proof.Machine

/-- `STATUS <- 0`, `RES <- res`, `OUT <- out`: how every command that succeeds writes its results (10_state.md R24 to
R26). -/
def State.succeed (s : State) (res : BitVec 64) (out : List OutRecord) : State :=
  { s with status := statusOk, res := res, out := out }

/-- `raise E`: STATUS becomes the error's code, RES 0 and OUT empty, and every other register keeps its value
(60_exceptions.md R262). -/
def State.fail (s : State) (e : ErrorKind) : State :=
  { s with status := errorCode e, res := 0, out := [] }

/-- The end of a command whose result is one scalar and no records. -/
def State.finish (s : State) (r : Except ErrorKind (BitVec 64)) : State :=
  match r with
  | .ok v => s.succeed v []
  | .error e => s.fail e

/-- The input sequence `IB` of the command in progress: the one the host handed over with it (20_memory.md R51). -/
def State.ib (s : State) : List Byte :=
  match s.port with
  | .command _ ib :: _ => ib
  | _ => []

/-- The host port admits an input sequence of at most IBUF_CAP bytes (20_memory.md R51). -/
def State.admits (s : State) (ib : List Byte) : Bool := decide (ib.length ≤ s.cfg.ibufCap)

/-- The host's move is done: the position in the list of commands advances by exactly 1, whatever the outcome
(10_state.md R31), and the operands do not persist (R29). -/
def State.retire (s : State) : State := { s with port := s.port.tail }

/-- A reset event puts every register to its reset value (70_reset_and_hazards.md R300). The parameters are no state and
keep their values, and the host's later moves are the host's own (log entry 8). -/
def State.takeReset (s : State) : State := { State.reset with port := s.port.tail, cfg := s.cfg }

/-- The host's move is done after a command that answered a next state. -/
def retireOutcome : Host.Outcome State Fault Refusal → Host.Outcome State Fault Refusal
  | .next t => .next t.retire
  | .fault f => .fault f
  | .refused r => .refused r

/-- The host's move of issuing the command word that stands for `nbits` bits of `w`, with an empty input sequence. -/
def fetchMove (nbits w : Nat) : HostMove := .command (BitVec.ofNat 64 (w % 2 ^ nbits)) []

end Sys2Proof.Machine
end

