-- ==== Sys2Proof/Machine/Crc.lean ====
section
/-! DEFINITION. The CRC engine (40_crc.md): CRC-16/CCITT-FALSE, and the commands CRC_UPDATE and CRC_COMPUTE. -/

namespace Sys2Proof.Machine

/-- `CRC_POLY` (00_scope.md R8). -/
abbrev crcPoly : CrcState := 0x1021

/-- `CRC_INIT` (00_scope.md R8). -/
abbrev crcInit : CrcState := 0xFFFF

/-- `CRC_SIZE`, in bytes (00_scope.md R8). -/
abbrev crcSize : Nat := 2

/-- One single-bit step of R120: shift left, and XOR the polynomial when the top bit was set. -/
def crcBit (c : CrcState) : CrcState :=
  if c.getLsbD 15 then (c <<< 1) ^^^ crcPoly else c <<< 1

/-- `n` single-bit steps (R120). -/
def crcBits (c : CrcState) : Nat → CrcState
  | 0 => c
  | n + 1 => crcBits (crcBit c) n

/-- `crc_update(s, b)` (R120): the byte is XOR-ed into the high byte of the state, then eight single-bit steps. -/
def crcUpdate (c : CrcState) (b : Byte) : CrcState :=
  crcBits (c ^^^ (b.setWidth 16 <<< 8)) 8

/-- The loop of `crc_compute` (R122): bytes folded in index order. -/
def crcFold (c : CrcState) : List Byte → CrcState
  | [] => c
  | b :: bs => crcFold (crcUpdate c b) bs

/-- `crc_compute(s0, d, data)` (R122): LengthMismatch if the declared length is not the data's. -/
def crcCompute (c : CrcState) (declared : Nat) (data : List Byte) : Except ErrorKind CrcState :=
  if declared = data.length then .ok (crcFold c data) else .error .lengthMismatch

/-- `CRC16(x)` (R122): the CRC of a sequence from the standard initial value. -/
def crc16 (data : List Byte) : CrcState := crcFold crcInit data

/-- `c[15:8]`, the first byte of a CRC trailer (20_memory.md R52). -/
def crcHigh (c : CrcState) : Byte := c.extractLsb' 8 8

/-- `c[7:0]`, the second byte of a CRC trailer (20_memory.md R52). -/
def crcLow (c : CrcState) : Byte := c.extractLsb' 0 8

/-- CRC_UPDATE (R121). -/
def execCrcUpdate (byte : BitVec 8) (crc : BitVec 16) (s : State) : Host.Outcome State Fault Refusal :=
  .next (s.succeed ((crcUpdate crc byte).setWidth 64) [])

/-- CRC_COMPUTE (R123). -/
def execCrcCompute (initial declared : BitVec 16) (s : State) : Host.Outcome State Fault Refusal :=
  .next (s.finish ((crcCompute initial declared.toNat s.ib).map (·.setWidth 64)))

end Sys2Proof.Machine
end

