-- ==== Sys2Proof/Machine/Dlc.lean ====
section
/-! DEFINITION. The DLC quantizer (41_dlc.md), the presentation-layer MTU that rests on it (44_fragmenter.md R180), and the
commands DLC_TO_LEN, LEN_TO_DLC and ROUND_UP_LEN. -/

namespace Sys2Proof.Machine

/-- The constant table `DLC_TO_LEN`, 16 entries (R130; 10_state.md R28). -/
def dlcToLenTable : List Nat := [0, 1, 2, 3, 4, 5, 6, 7, 8, 12, 16, 20, 24, 32, 48, 64]

/-- The constant table `LEN_TO_DLC`, 65 entries, in the ranges R131 lists (10_state.md R28). -/
def lenToDlcTable : List Nat :=
  List.range 9 ++ List.replicate 4 9 ++ List.replicate 4 10 ++ List.replicate 4 11 ++ List.replicate 4 12
    ++ List.replicate 8 13 ++ List.replicate 16 14 ++ List.replicate 16 15

/-- The largest frame length (00_scope.md R8), and the last index of `LEN_TO_DLC`. -/
abbrev frameLengthMax : Nat := 64

/-- `DLC_TO_LEN[d]`; every caller has `d <= 15` (log entry 12). -/
def dlcLen (d : Nat) : Nat := dlcToLenTable.getD d 0

/-- `LEN_TO_DLC[n]`; every caller has `n <= 64` (log entry 12). -/
def lenDlc (n : Nat) : Nat := lenToDlcTable.getD n 0

/-- `DLC_TO_LEN[LEN_TO_DLC[n]]`, the value of R132 for `n <= 64`. -/
def quantize (n : Nat) : Nat := dlcLen (lenDlc n)

/-- `round_up_frame_length(n)` (R132). -/
def roundUpFrameLength (n : Nat) : Except ErrorKind Nat :=
  if n > frameLengthMax then .error .invalidFrameSize else .ok (quantize n)

/-- `presentation_mtu(mtu)` (44_fragmenter.md R180); its argument of the rounding is at most 64, so it never fails. -/
def presentationMtu (mtu : BitVec 7) : Nat := quantize (min (max mtu.toNat 8) 64) - 1

/-- The look-up of DLC_TO_LEN (R133): a DLC above 15 is not in the table. -/
def lookUpLen (dlc : BitVec 8) : Except ErrorKind (BitVec 64) :=
  if dlc.toNat > 15 then .error .invalidFrameSize else .ok (BitVec.ofNat 64 (dlcLen dlc.toNat))

/-- The look-up of LEN_TO_DLC (R134): a count above 64 is not in the table. -/
def lookUpDlc (n : BitVec 16) : Except ErrorKind (BitVec 64) :=
  if n.toNat > frameLengthMax then .error .invalidFrameSize else .ok (BitVec.ofNat 64 (lenDlc n.toNat))

/-- DLC_TO_LEN (R133). -/
def execDlcToLen (dlc : BitVec 8) (s : State) : Host.Outcome State Fault Refusal :=
  .next (s.finish (lookUpLen dlc))

/-- LEN_TO_DLC (R134). -/
def execLenToDlc (n : BitVec 16) (s : State) : Host.Outcome State Fault Refusal :=
  .next (s.finish (lookUpDlc n))

/-- ROUND_UP_LEN (R135). -/
def execRoundUpLen (n : BitVec 16) (s : State) : Host.Outcome State Fault Refusal :=
  .next (s.finish ((roundUpFrameLength n.toNat).map (BitVec.ofNat 64)))

end Sys2Proof.Machine
end

