-- ==== Sys2Proof/Machine/CanIdentifier.lean ====
section
/-! DEFINITION. The CAN identifier packer and unpacker (42_can_id.md; layouts 30_encoding.md R91 to R93), and the commands
MAKE_MESSAGE_ID, MAKE_SERVICE_ID, MAKE_CAN_ID and UNPACK_ID. -/

namespace Sys2Proof.Machine

/-- `make_message_id(subject, src)` (R140). -/
def makeMessageId (subject : BitVec 16) (src : BitVec 8) : Except ErrorKind CanId :=
  if validNode src && validSubject subject then .ok ((subject.setWidth 29 <<< 8) ||| src.setWidth 29)
  else .error .invalidArgument

/-- `make_service_id(service, req, src, dst)` (R141); the service id stands at bits [22:14] (90_conflicts.md C1). -/
def makeServiceId (service : BitVec 16) (isRequest : Bool) (src dst : BitVec 8) : Except ErrorKind CanId :=
  if validNode src && validNode dst && validService service then
    .ok ((1 <<< 25) ||| ((BitVec.ofBool isRequest).setWidth 29 <<< 24) ||| (service.setWidth 29 <<< 14)
      ||| (dst.setWidth 29 <<< 7) ||| src.setWidth 29)
  else .error .invalidArgument

/-- The source-node field of an anonymous message, `CRC16(payload) & 0x7F` (R143). -/
def anonymousSource (payload : List Byte) : BitVec 8 := (crc16 payload &&& 0x7F).setWidth 8

/-- The Message branch of `make_can_id` (R143): a valid local node is the source; an anonymous one may send a
single frame only, with a synthesized source and the anonymous flag, bit 24. -/
def messageCanId (portId : BitVec 16) (payload : List Byte) (localNode : BitVec 8) (mtu : BitVec 7) :
    Except ErrorKind CanId :=
  if validNode localNode then makeMessageId portId localNode
  else if payload.length ≤ presentationMtu mtu then
    (makeMessageId portId (anonymousSource payload)).map (· ||| (1 <<< 24))
  else .error .invalidArgument

/-- The service branch of `make_can_id` (R143): an anonymous local node is refused. -/
def serviceCanId (isRequest : Bool) (portId : BitVec 16) (remoteNode localNode : BitVec 8) : Except ErrorKind CanId :=
  if validNode localNode then makeServiceId portId isRequest localNode remoteNode else .error .invalidArgument

/-- The identifier of `make_can_id` before the priority bits: the branch of R143 that the kind, the remote node and the
port id select; "Any other combination fails with InvalidArgument". -/
def baseCanId (kind : TransferKind) (portId : BitVec 16) (remoteNode : BitVec 8) (payload : List Byte)
    (localNode : BitVec 8) (mtu : BitVec 7) : Except ErrorKind CanId :=
  match kind with
  | .message =>
    if !validNode remoteNode && validSubject portId then messageCanId portId payload localNode mtu
    else .error .invalidArgument
  | .request =>
    if validNode remoteNode && validService portId then serviceCanId true portId remoteNode localNode
    else .error .invalidArgument
  | .response =>
    if validNode remoteNode && validService portId then serviceCanId false portId remoteNode localNode
    else .error .invalidArgument

/-- The priority bits and the zero check that end `make_can_id` (R143, R144). -/
def withPriority (priority : BitVec 3) (id : CanId) : Except ErrorKind CanId :=
  let xid := id ||| (priority.setWidth 29 <<< 26)
  if xid = 0 then .error .invalidCanId else .ok xid

/-- `make_can_id(prio, kind, port, remote, payload, local, mtu)` (R143). -/
def makeCanId (priority : BitVec 3) (kind : TransferKind) (portId : BitVec 16) (remoteNode : BitVec 8)
    (payload : List Byte) (localNode : BitVec 8) (mtu : BitVec 7) : Except ErrorKind CanId :=
  match baseCanId kind portId remoteNode payload localNode mtu with
  | .error e => .error e
  | .ok id => withPriority priority id

/-- What `unpack_id` returns (R148). -/
structure IdFields where
  priority : BitVec 3
  kind : TransferKind
  portId : BitVec 16
  src : BitVec 8
  dst : BitVec 8
deriving DecidableEq, Repr

/-- `x[SUBJECT_RX_MSB:8]` (R148, 30_encoding.md R92). -/
def subjectField (msb : SubjectRxMsb) (x : CanId) : BitVec 16 :=
  match msb with
  | .bit21 => (x.extractLsb' 8 14).setWidth 16
  | .bit20 => (x.extractLsb' 8 13).setWidth 16

/-- `unpack_id(x)` (R148) on the 29 bits that the block uses of an identifier. Nothing is checked. -/
def unpackId (msb : SubjectRxMsb) (x : CanId) : IdFields :=
  if x.getLsbD 25 then
    { priority := x.extractLsb' 26 3
      kind := if x.getLsbD 24 then .request else .response
      portId := (x.extractLsb' 14 9).setWidth 16
      src := (x.extractLsb' 0 7).setWidth 8
      dst := (x.extractLsb' 7 7).setWidth 8 }
  else
    { priority := x.extractLsb' 26 3
      kind := .message
      portId := subjectField msb x
      src := if x.getLsbD 24 then unsetNode else (x.extractLsb' 0 7).setWidth 8
      dst := unsetNode }

/-- The identifier bits [28:0] of a 32-bit container, bits [31:29] ignored (30_encoding.md R91, 92 D25). -/
def canIdOf (x : BitVec 32) : CanId := x.setWidth 29

/-- RES of UNPACK_ID (R149, 30_encoding.md R100). -/
def idFieldsRes (f : IdFields) : BitVec 64 :=
  f.portId.setWidth 64 ||| (f.src.setWidth 64 <<< 16) ||| (f.dst.setWidth 64 <<< 24)
    ||| (f.priority.setWidth 64 <<< 32) ||| ((kindCode f.kind).setWidth 64 <<< 35)

/-- RES of a command whose result is an identifier (30_encoding.md R100). -/
def canIdRes (r : Except ErrorKind CanId) : Except ErrorKind (BitVec 64) := r.map (·.setWidth 64)

/-- MAKE_MESSAGE_ID (R145). -/
def execMakeMessageId (src : BitVec 8) (subject : BitVec 16) (s : State) : Host.Outcome State Fault Refusal :=
  .next (s.finish (canIdRes (makeMessageId subject src)))

/-- MAKE_SERVICE_ID (R146). -/
def execMakeServiceId (src dst : BitVec 8) (service : BitVec 16) (isRequest : Bool) (s : State) :
    Host.Outcome State Fault Refusal :=
  .next (s.finish (canIdRes (makeServiceId service isRequest src dst)))

/-- MAKE_CAN_ID (R147): the local node id is the operand, not NODE_ID (92 D32). KIND = 3 is IllegalCommand
(30_encoding.md R85; the decoder rejects it first, log entry 10). -/
def execMakeCanId (localNode remoteNode : BitVec 8) (portId : BitVec 16) (priority : BitVec 3) (kind : BitVec 2)
    (s : State) : Host.Outcome State Fault Refusal :=
  match kindOfCode kind with
  | none => .next (s.fail .illegalCommand)
  | some k => .next (s.finish (canIdRes (makeCanId priority k portId remoteNode s.ib localNode s.mtu)))

/-- UNPACK_ID (R149). -/
def execUnpackId (id : BitVec 32) (s : State) : Host.Outcome State Fault Refusal :=
  .next (s.succeed (idFieldsRes (unpackId s.cfg.subjectRxMsb (canIdOf id))) [])

end Sys2Proof.Machine
end

