-- ==== Sys2Proof/Machine/Control.lean ====
section
/-! DEFINITION. Configuration and state access (46_control.md): the commands INIT, SET_NODE_ID and READ_STATE. -/

namespace Sys2Proof.Machine

/-- RES of READ_STATE (R242, 30_encoding.md R100). -/
def stateRes (s : State) : BitVec 64 :=
  s.nodeId.setWidth 64 ||| (s.mtu.setWidth 64 <<< 8) ||| (s.tid.setWidth 64 <<< 16)

/-- INIT (R240): an MTU outside the legal set is refused and changes no register. -/
def execInit (node : BitVec 8) (mtu : BitVec 16) (s : State) : Host.Outcome State Fault Refusal :=
  if legalMtu mtu.toNat then .next { s.succeed 0 [] with nodeId := node, mtu := mtu.setWidth 7, tid := 0 }
  else .next (s.fail .invalidFrameSize)

/-- SET_NODE_ID (R241). -/
def execSetNodeId (node : BitVec 8) (s : State) : Host.Outcome State Fault Refusal :=
  .next { s.succeed 0 [] with nodeId := node }

/-- READ_STATE (R242). -/
def execReadState (s : State) : Host.Outcome State Fault Refusal :=
  .next (s.succeed (stateRes s) [])

end Sys2Proof.Machine
end

