-- ==== Sys2Proof/Machine/Tail.lean ====
section
/-! DEFINITION. The tail-byte framer (43_tail_byte.md; layout 30_encoding.md R94), and the commands MAKE_TAIL and
DECODE_TAIL. -/

namespace Sys2Proof.Machine

/-- `INITIAL_TOGGLE` (00_scope.md R8). -/
abbrev initialToggle : Bool := true

/-- `make_tail_byte(start, end, toggle, tid)` (R170): InvalidState for a start bit without the initial toggle; only the
low five bits of the transfer-id are kept. -/
def makeTailByte (startBit endBit toggle : Bool) (tid : BitVec 8) : Except ErrorKind Byte :=
  if startBit && toggle != initialToggle then .error .invalidState
  else .ok (BitVec.ofBool startBit ++ BitVec.ofBool endBit ++ BitVec.ofBool toggle ++ tid.extractLsb' 0 5)

/-- What `decode_tail` returns (R172). -/
structure TailFields where
  startBit : Bool
  endBit : Bool
  toggle : Bool
  transferId : BitVec 5
deriving DecidableEq, Repr

/-- `decode_tail(t)` (R172). Nothing is checked. -/
def decodeTail (t : Byte) : TailFields :=
  { startBit := t.getLsbD 7
    endBit := t.getLsbD 6
    toggle := t.getLsbD 5
    transferId := t.extractLsb' 0 5 }

/-- RES of DECODE_TAIL (R173, 30_encoding.md R100): the tail byte itself and the frame type above it. -/
def tailRes (t : Byte) : BitVec 64 :=
  t.setWidth 64 ||| ((frameTypeCode (frameTypeOf (decodeTail t).startBit (decodeTail t).endBit)).setWidth 64 <<< 8)

/-- MAKE_TAIL (R171). -/
def execMakeTail (tid : BitVec 8) (startBit endBit toggle : Bool) (s : State) : Host.Outcome State Fault Refusal :=
  .next (s.finish ((makeTailByte startBit endBit toggle tid).map (·.setWidth 64)))

/-- DECODE_TAIL (R173). -/
def execDecodeTail (tail : BitVec 8) (s : State) : Host.Outcome State Fault Refusal :=
  .next (s.succeed (tailRes tail) [])

end Sys2Proof.Machine
end

