-- ==== Sys2Proof/Machine/Fragmenter.lean ====
section
/-! DEFINITION. The frame fragmenter and per-frame payload serializer (44_fragmenter.md), and the commands CREATE_PACKET,
SEND_MESSAGE, SEND_REQUEST and SEND_RESPONSE. -/

namespace Sys2Proof.Machine

/-- `single_frame(xid, tid, payload, mtu)` (R182). -/
def singleFrame (xid : CanId) (tid : BitVec 8) (payload : List Byte) (mtu : Nat) :
    Except ErrorKind (List OutboundFrame) :=
  match roundUpFrameLength (payload.length + 1) with
  | .error e => .error e
  | .ok lf =>
    if lf > mtu then .error .invalidFrameSize
    else
      match makeTailByte true true initialToggle tid with
      | .error e => .error e
      | .ok t =>
        .ok [{ xid := xid, len := lf,
               data := payload ++ zeros (lf - 1 - payload.length) ++ [t] ++ zeros (mtu - lf) }]

/-- What one frame of the multi-frame path has placed so far: the data bytes `d` of the frame, and the cursor `off` and
running CRC of R183, which counts payload and CRC bytes but no padding (R184). -/
structure Fill where
  d : List Byte
  off : Nat
  crc : CrcState
deriving DecidableEq, Repr

/-- "copy available payload bytes" (R183): at most `p` of them. Past the payload's end there are none. -/
def copyPayload (payload : List Byte) (p off : Nat) (c : CrcState) : Fill :=
  let m := min (payload.length - off) p
  { d := slice payload off (off + m), off := off + m, crc := c }

/-- "pad up to cap - CRC_SIZE", each pad byte folded into the running CRC (R183). -/
def padFrame (cap : Nat) (f : Fill) : Fill :=
  let pad := zeros (cap - crcSize - f.d.length)
  { d := f.d ++ pad, off := f.off, crc := crcFold f.crc pad }

/-- The CRC high byte, if there is room and the payload has just been placed (R183; `n` is the payload length). -/
def placeCrcHigh (n cap : Nat) (f : Fill) : Fill :=
  if f.d.length < cap ∧ f.off = n then { d := f.d ++ [crcHigh f.crc], off := f.off + 1, crc := f.crc } else f

/-- The CRC low byte, if there is room and the high byte has been placed (R183). -/
def placeCrcLow (n cap : Nat) (f : Fill) : Fill :=
  if f.d.length < cap ∧ f.off > n then { d := f.d ++ [crcLow f.crc], off := f.off + 1, crc := f.crc } else f

/-- The data bytes of one frame of the multi-frame path (R183): payload, and at or past the payload's end the padding and
the CRC bytes. -/
def fillFrame (payload : List Byte) (p cap off : Nat) (c : CrcState) : Fill :=
  let f := copyPayload payload p off c
  if f.off < payload.length then f
  else placeCrcLow payload.length cap (placeCrcHigh payload.length cap (padFrame cap f))

/-- The length of the frame that has `rem` payload and CRC bytes left to place (R183): a full frame, or the last frame,
rounded up from `rem + 1` (R184). -/
def multiFrameLength (p rem : Nat) : Nat := if p ≤ rem then p + 1 else quantize (rem + 1)

/-- The loop of `multi_frame` (R183). `first` is `frames == []`. Every round places at least one byte, so a fuel of
`payload_size + 2` never runs out (log entry 11). -/
def multiFrameLoop (xid : CanId) (tid : BitVec 8) (payload : List Byte) (p mtu : Nat) :
    Nat → Bool → Bool → Nat → CrcState → Except ErrorKind (List OutboundFrame)
  | 0, _, _, _, _ => .ok []
  | fuel + 1, first, toggle, off, c =>
    if off < payload.length + crcSize then
      let lf := multiFrameLength p (payload.length + crcSize - off)
      let f := fillFrame payload p (lf - 1) off c
      match makeTailByte first (decide (payload.length + crcSize ≤ f.off)) toggle tid with
      | .error e => .error e
      | .ok t =>
        match multiFrameLoop xid tid payload p mtu fuel false (!toggle) f.off f.crc with
        | .error e => .error e
        | .ok rest => .ok ({ xid := xid, len := lf, data := f.d ++ [t] ++ zeros (mtu - lf) } :: rest)
    else .ok []

/-- `multi_frame(xid, tid, payload, P, mtu)` (R183). -/
def multiFrame (xid : CanId) (tid : BitVec 8) (payload : List Byte) (p mtu : Nat) :
    Except ErrorKind (List OutboundFrame) :=
  multiFrameLoop xid tid payload p mtu (payload.length + crcSize) true initialToggle 0 (crc16 payload)

/-- `create_packet(prio, kind, port, remote, tid, payload, local, mtu)` (R181): every error of the identifier builder
surfaces as InvalidCanId (90_conflicts.md C4). -/
def createPacket (priority : BitVec 3) (kind : TransferKind) (portId : BitVec 16) (remoteNode tid : BitVec 8)
    (payload : List Byte) (localNode : BitVec 8) (mtu : BitVec 7) : Except ErrorKind (List OutboundFrame) :=
  match makeCanId priority kind portId remoteNode payload localNode mtu with
  | .error _ => .error .invalidCanId
  | .ok xid =>
    if payload.length ≤ presentationMtu mtu then singleFrame xid tid payload mtu.toNat
    else multiFrame xid tid payload (presentationMtu mtu) mtu.toNat

/-- `fr[0].xid`; `create_packet` never returns an empty list (R186; log entry 12). -/
def firstXid : List OutboundFrame → CanId
  | [] => 0
  | f :: _ => f.xid

/-- RES of the commands that make frames (30_encoding.md R100): their number, and their identifier from bit 32. -/
def framesRes (fr : List OutboundFrame) : BitVec 64 :=
  BitVec.ofNat 64 fr.length ||| ((firstXid fr).setWidth 64 <<< 32)

/-- The end of a command that made frames, or failed to (R187, 60_exceptions.md R262). -/
def State.finishFrames (s : State) (r : Except ErrorKind (List OutboundFrame)) : State :=
  match r with
  | .ok fr => s.succeed (framesRes fr) (fr.map OutRecord.outbound)
  | .error e => s.fail e

/-- `TID_MODULUS` as a number (00_scope.md R7). -/
def tidModulus : TidModulus → Nat
  | .wrap256 => 256
  | .wrap32 => 32

/-- `(TID + 1) mod TID_MODULUS` (R191). -/
def nextTid (m : TidModulus) (tid : BitVec 8) : BitVec 8 := BitVec.ofNat 8 ((tid.toNat + 1) % tidModulus m)

/-- The body the three SEND_* commands share (R188 to R191): fragment with the Nominal priority and the current TID, and
advance TID only if that succeeded. -/
def State.sendTransfer (s : State) (kind : TransferKind) (portId : BitVec 16) (remoteNode : BitVec 8) : State :=
  match createPacket s.cfg.prioNominal kind portId remoteNode s.tid s.ib s.nodeId s.mtu with
  | .ok fr =>
    { s.succeed (framesRes fr) (fr.map OutRecord.outbound) with tid := nextTid s.cfg.tidModulus s.tid }
  | .error e => s.fail e

/-- CREATE_PACKET (R187): TID is neither read nor written. KIND = 3 is IllegalCommand (30_encoding.md R85; the decoder
rejects it first, log entry 10). -/
def execCreatePacket (tid remoteNode : BitVec 8) (portId : BitVec 16) (priority : BitVec 3) (kind : BitVec 2)
    (s : State) : Host.Outcome State Fault Refusal :=
  match kindOfCode kind with
  | none => .next (s.fail .illegalCommand)
  | some k => .next (s.finishFrames (createPacket priority k portId remoteNode tid s.ib s.nodeId s.mtu))

/-- SEND_MESSAGE (R188): the remote node is unset. -/
def execSendMessage (subject : BitVec 16) (s : State) : Host.Outcome State Fault Refusal :=
  .next (s.sendTransfer .message subject unsetNode)

/-- SEND_REQUEST (R189). -/
def execSendRequest (dst : BitVec 8) (service : BitVec 16) (s : State) : Host.Outcome State Fault Refusal :=
  .next (s.sendTransfer .request service dst)

/-- SEND_RESPONSE (R190). -/
def execSendResponse (dst : BitVec 8) (service : BitVec 16) (s : State) : Host.Outcome State Fault Refusal :=
  .next (s.sendTransfer .response service dst)

end Sys2Proof.Machine
end

