-- ==== Sys2Proof/Machine/Parser.lean ====
section
/-! DEFINITION. The frame parser (45_rx_parser.md; record layout 30_encoding.md R96), and the command PARSE_BUFFER. -/

namespace Sys2Proof.Machine

/-- The header size of a raw receive record (00_scope.md R8, 30_encoding.md R96). -/
abbrev recordHeader : Nat := 8

/-- The size of a raw receive record, `MTU + 8` (R220). -/
def recordSize (mtu : Nat) : Nat := mtu + recordHeader

/-- The DLC of a record's header, bits [19:16] of its little-endian value (20_memory.md R54). -/
def headerDlc (h : BitVec 32) : BitVec 4 := h.extractLsb' 16 4

/-- `parse_record(b, mtu)` (R222, R223) on the input sequence `ib`. -/
def parseRecord (msb : SubjectRxMsb) (ib : List Byte) (mtu b : Nat) : Except ErrorKind InboundFrame :=
  let xid := canIdOf (readField32 ib b)
  let dlc := headerDlc (readField32 ib (b + 4))
  let ld := dlcLen dlc.toNat
  if ld = 0 ∨ ld > mtu then .error .invalidFrameLength
  else
    let t := decodeTail (byteAt ib (b + recordHeader + ld - 1))
    let f := unpackId msb xid
    .ok { xid := xid
          priority := f.priority
          kind := f.kind
          portId := f.portId
          sourceNodeId := f.src
          destinationNodeId := f.dst
          transferId := t.transferId
          startBit := t.startBit
          endBit := t.endBit
          toggle := t.toggle
          frameType := frameTypeOf t.startBit t.endBit
          dlc := dlc
          payloadLen := BitVec.ofNat 7 (ld - 1)
          payload := slice ib (b + recordHeader) (b + recordHeader + ld - 1) ++ zeros (mtu - (ld - 1)) }

/-- `n` records from record `j` on, in index order, the first failing one deciding (R224, 60_exceptions.md R263). -/
def parseRecords (msb : SubjectRxMsb) (ib : List Byte) (mtu : Nat) : Nat → Nat → Except ErrorKind (List InboundFrame)
  | 0, _ => .ok []
  | n + 1, j =>
    match parseRecord msb ib mtu (j * recordSize mtu) with
    | .error e => .error e
    | .ok r =>
      match parseRecords msb ib mtu n (j + 1) with
      | .error e => .error e
      | .ok rs => .ok (r :: rs)

/-- `parse` (R221, R224): the length check comes before any record. -/
def parseBuffer (msb : SubjectRxMsb) (ib : List Byte) (mtu : Nat) : Except ErrorKind (List InboundFrame) :=
  if ib.length % recordSize mtu = 0 then parseRecords msb ib mtu (ib.length / recordSize mtu) 0
  else .error .invalidFrameLength

/-- The end of a command that parsed records, or failed to (R224, 60_exceptions.md R262). -/
def State.finishRecords (s : State) (r : Except ErrorKind (List InboundFrame)) : State :=
  match r with
  | .ok recs => s.succeed (BitVec.ofNat 64 recs.length) (recs.map OutRecord.inbound)
  | .error e => s.fail e

/-- PARSE_BUFFER (R224). -/
def execParseBuffer (s : State) : Host.Outcome State Fault Refusal :=
  .next (s.finishRecords (parseBuffer s.cfg.subjectRxMsb s.ib s.mtu.toNat))

end Sys2Proof.Machine
end

