-- ==== Sys2Proof/Machine/Dispatch.lean ====
section
/-! DEFINITION. One arm per command of opcode_table.json (30_encoding.md R82): a direct call of its meaning. -/

namespace Sys2Proof.Machine

/-- The meaning of each command. -/
def exec (i : Instr) (s : State) : Host.Outcome State Fault Refusal :=
  match i with
  | .crcUpdate byte crc => Sys2Proof.Machine.execCrcUpdate byte crc s
  | .crcCompute initial declared => Sys2Proof.Machine.execCrcCompute initial declared s
  | .dlcToLen dlc => Sys2Proof.Machine.execDlcToLen dlc s
  | .lenToDlc n => Sys2Proof.Machine.execLenToDlc n s
  | .roundUpLen n => Sys2Proof.Machine.execRoundUpLen n s
  | .makeMessageId src subject => Sys2Proof.Machine.execMakeMessageId src subject s
  | .makeServiceId src dst service isRequest => Sys2Proof.Machine.execMakeServiceId src dst service isRequest s
  | .makeCanId localNode remoteNode portId priority kind => Sys2Proof.Machine.execMakeCanId localNode remoteNode portId priority kind s
  | .unpackId id => Sys2Proof.Machine.execUnpackId id s
  | .makeTail tid startBit endBit toggle => Sys2Proof.Machine.execMakeTail tid startBit endBit toggle s
  | .decodeTail tail => Sys2Proof.Machine.execDecodeTail tail s
  | .createPacket tid remoteNode portId priority kind => Sys2Proof.Machine.execCreatePacket tid remoteNode portId priority kind s
  | .sendMessage subject => Sys2Proof.Machine.execSendMessage subject s
  | .sendRequest dst service => Sys2Proof.Machine.execSendRequest dst service s
  | .sendResponse dst service => Sys2Proof.Machine.execSendResponse dst service s
  | .parseBuffer => Sys2Proof.Machine.execParseBuffer s
  | .init node mtu => Sys2Proof.Machine.execInit node mtu s
  | .setNodeId node => Sys2Proof.Machine.execSetNodeId node s
  | .readState => Sys2Proof.Machine.execReadState s

end Sys2Proof.Machine
end

