-- ==== Sys2Proof/Machine/Step.lean ====
section
/-! DEFINITION. One step of the machine: the host's next move, carried out as one atomic transition (20_memory.md R58, R60,
R66; 70_reset_and_hazards.md R309). -/

namespace Sys2Proof.Machine

/-- One step. With no move pending the block is idle (70_reset_and_hazards.md R301; log entry 5). A reset puts every
register to its reset value (R300). A command whose input the port admits is decoded (30_encoding.md R88) and run; a word
the decoder rejects fails with IllegalCommand (60_exceptions.md R261). -/
def step (s : State) : Host.Outcome State Fault Refusal :=
  match s.port with
  | [] => .next s
  | .reset :: _ => .next s.takeReset
  | .command cw ib :: _ =>
    if s.admits ib then
      match decode cw with
      | .command i => retireOutcome (exec i s)
      | .rejected _ => retireOutcome (.next (s.fail .illegalCommand))
    else .refused .inputTooLong

/-- `s` with the host about to issue the command word `w` of `nbits` bits, with an empty input sequence: the next step
decodes and runs exactly it (log entry 1). -/
def State.withFetchWord (s : State) (nbits w : Nat) : State := { s with port := fetchMove nbits w :: s.port }

end Sys2Proof.Machine
end

