-- ==== Sys2Proof/Safety.lean ====
section
/-! DEFINITION. What a legal state of the block is (10_state.md R22 to R26, 30_encoding.md R97, R98), and the other terms
the statements use, each written from the rule it cites and not from the machine's own definitions where it can be. -/

namespace Sys2Proof.Machine

/-- Every byte of a sequence is 0x00. -/
def allZero (s : List Byte) : Bool := s.all (· == 0)

/-- An outbound frame record as 30_encoding.md R97 describes it, for a given MTU. -/
def OutboundFrame.wf (mtu : Nat) (f : OutboundFrame) : Bool :=
  decide (1 ≤ f.len) && decide (f.len ≤ mtu) && decide (f.data.length = mtu) && allZero (f.data.drop f.len)

/-- An inbound frame record as 30_encoding.md R98 and 45_rx_parser.md R222 describe it, for a given MTU: the payload
buffer is MTU bytes, zero beyond `payloadLen`; the declared length is the DLC's, at least 1 and at most MTU, and
`payloadLen` is one less; the routing fields are those of the identifier, and the frame type that of the flags. -/
def InboundFrame.wf (msb : SubjectRxMsb) (mtu : Nat) (f : InboundFrame) : Bool :=
  decide (f.payload.length = mtu) && allZero (f.payload.drop f.payloadLen.toNat)
    && decide (f.payloadLen.toNat + 1 = dlcLen f.dlc.toNat) && decide (dlcLen f.dlc.toNat ≤ mtu)
    && decide (unpackId msb f.xid
        = { priority := f.priority, kind := f.kind, portId := f.portId, src := f.sourceNodeId,
            dst := f.destinationNodeId })
    && decide (f.frameType = frameTypeOf f.startBit f.endBit)

/-- Is a record of OUT an outbound one? -/
def OutRecord.isOutbound : OutRecord → Bool
  | .outbound _ => true
  | .inbound _ => false

/-- A record of OUT as the rules describe it, for the given parameters and MTU. -/
def OutRecord.wf (c : Config) (mtu : Nat) : OutRecord → Bool
  | .outbound f => f.wf mtu
  | .inbound f => f.wf c.subjectRxMsb mtu

/-- A legal state: what every rule about a register's range or a record's shape says at once. -/
structure State.Inv (s : State) : Prop where
  /-- the parameters are permitted ones (00_scope.md R7) -/
  cfg_wf : s.cfg.wf
  /-- MTU holds one of its legal values (10_state.md R22) -/
  mtu_legal : legalMtu s.mtu.toNat = true
  /-- `0 <= TID < TID_MODULUS` (10_state.md R23) -/
  tid_lt : s.tid.toNat < tidModulus s.cfg.tidModulus
  /-- codes 8 to 255 are never written to STATUS (60_exceptions.md R260) -/
  status_le : s.status.toNat ≤ 7
  /-- after a failed command RES is 0 and OUT is empty (60_exceptions.md R262) -/
  fail_clears : s.status ≠ statusOk → s.res = 0 ∧ s.out = []
  /-- OUT holds outbound records only or inbound records only (10_state.md R26) -/
  one_kind : (∀ r ∈ s.out, r.isOutbound = true) ∨ (∀ r ∈ s.out, r.isOutbound = false)
  /-- every record of OUT has the shape of its kind under the present MTU (30_encoding.md R97, R98) -/
  records_wf : ∀ r ∈ s.out, r.wf s.cfg s.mtu.toNat = true
  /-- OUT holds at most OUT_CAP records (10_state.md R26) -/
  capacity : s.out.length ≤ s.cfg.outCap

/-! ## The host's view of one command -/

/-- `s` with the host issuing one more command before its other moves: the word and its input sequence
(20_memory.md R66). -/
def State.issue (s : State) (cw : CommandWord) (ib : List Byte) : State := { s with port := .command cw ib :: s.port }

/-- The opcodes of 30_encoding.md R82 with the `mask` column of opcode_table.json (R83); the `match` column is the opcode
itself. -/
def opcodeMasks : List (BitVec 8 × CommandWord) :=
  [(0x01, 0xFFFFFF0000FF00FF), (0x02, 0x0000FF0000FFFFFF), (0x10, 0xFFFFFFFFFFFF00FF), (0x11, 0xFFFFFF0000FFFFFF),
   (0x12, 0xFFFFFF0000FFFFFF), (0x20, 0xFFFFFF0000FF00FF), (0x21, 0xFFFFDF00000000FF), (0x22, 0xFFFFE000000000FF),
   (0x23, 0xFFFFFF00000000FF), (0x30, 0xFFFF1FFFFFFF00FF), (0x31, 0xFFFFFFFFFFFF00FF), (0x40, 0xFFFFE000000000FF),
   (0x41, 0xFFFFFF0000FFFFFF), (0x42, 0xFFFFFF000000FFFF), (0x43, 0xFFFFFF000000FFFF), (0x50, 0xFFFFFFFFFFFFFFFF),
   (0x70, 0xFFFFFF0000FF00FF), (0x71, 0xFFFFFFFFFFFF00FF), (0x72, 0xFFFFFFFFFFFFFFFF)]

/-- The encoding paragraph of a command rule: a word that matches the row of opcode_table.json decodes to the command
its fields give (if that is well formed, 30_encoding.md R85), and one that has the opcode but another reserved bit set
fails with IllegalCommand, code 7, and changes nothing else (R83). -/
def EncodedAs (pattern mask : CommandWord) (build : CommandWord → Instr) : Prop :=
  (∀ w : CommandWord, w &&& mask = pattern → (build w).wellFormed = true → decode w = .command (build w)) ∧
  (∀ (w : CommandWord) (s : State) (ib : List Byte), w.extractLsb 7 0 = pattern.extractLsb 7 0 → w &&& mask ≠ pattern → ib.length ≤ s.cfg.ibufCap →
    step (s.issue w ib) = .next { s with status := 7, res := 0, out := [] })

/-! ## Transfers -/

/-- The operands for which `make_can_id` gives an identifier (42_can_id.md R143, R144): the kind's own remote node and
port ranges, a local node that may send, and not the one combination whose identifier is zero. -/
def idAccepted (priority : BitVec 3) (kind : TransferKind) (portId : BitVec 16) (remoteNode : BitVec 8)
    (payload : List Byte) (localNode : BitVec 8) (mtu : BitVec 7) : Prop :=
  match kind with
  | .message =>
    128 ≤ remoteNode.toNat ∧ portId.toNat ≤ 8191 ∧ (localNode.toNat ≤ 127 ∨ payload.length ≤ presentationMtu mtu) ∧
      ¬(localNode = 0 ∧ portId = 0 ∧ priority = 0)
  | .request => remoteNode.toNat ≤ 127 ∧ portId.toNat ≤ 511 ∧ localNode.toNat ≤ 127
  | .response => remoteNode.toNat ≤ 127 ∧ portId.toNat ≤ 511 ∧ localNode.toNat ≤ 127

/-- The data bytes of an outbound frame before its tail byte (30_encoding.md R97). -/
def OutboundFrame.body (f : OutboundFrame) : List Byte := f.data.take (f.len - 1)

/-- The tail byte of an outbound frame, its last valid byte (30_encoding.md R94, R97). -/
def OutboundFrame.tailByte (f : OutboundFrame) : Byte := byteAt f.data (f.len - 1)

/-- `n = ceil((N + 2) / P)` (44_fragmenter.md R185). -/
def frameCount (n p : Nat) : Nat := (n + 2 + p - 1) / p

/-- `r = N + 2 - (n - 1) * P` (44_fragmenter.md R185). -/
def lastShare (n p : Nat) : Nat := n + 2 - (frameCount n p - 1) * p

/-- `S = payload ++ zeros(pad)` with `pad = round_up_frame_length(r + 1) - 1 - r` (44_fragmenter.md R185). -/
def paddedPayload (payload : List Byte) (p : Nat) : List Byte :=
  payload ++ zeros (quantize (lastShare payload.length p + 1) - 1 - lastShare payload.length p)

/-- `T = S ++ [c[15:8], c[7:0]]` with `c = CRC16(S)` (44_fragmenter.md R185). -/
def transferBytes (payload : List Byte) (p : Nat) : List Byte :=
  paddedPayload payload p
    ++ [(crc16 (paddedPayload payload p)).extractLsb 15 8, (crc16 (paddedPayload payload p)).extractLsb 7 0]

/-- The tail byte of frame `k` of `n` (43_tail_byte.md R175, 30_encoding.md R94). -/
def sequenceTail (k n : Nat) (tid : BitVec 8) : Byte :=
  BitVec.ofBool (k == 0) ++ BitVec.ofBool (k + 1 == n) ++ BitVec.ofBool (k % 2 == 0) ++ (tid.extractLsb 4 0 : BitVec 5)

/-- Frame `k` of the closed form of the multi-frame path (44_fragmenter.md R185). -/
def closedFrame (xid : CanId) (tid : BitVec 8) (payload : List Byte) (p mtu k : Nat) : OutboundFrame :=
  let n := frameCount payload.length p
  let t := transferBytes payload p
  let len := if k + 1 < n then p + 1 else quantize (lastShare payload.length p + 1)
  let d := if k + 1 < n then slice t (k * p) (k * p + p) else t.drop ((n - 1) * p)
  { xid := xid, len := len, data := d ++ [sequenceTail k n tid] ++ zeros (mtu - len) }

/-- The raw receive record of an outbound frame: the identifier as 4 little-endian bytes, `00 00 dlc 00`, and the data
buffer (45_rx_parser.md R226). -/
def rawRecord (f : OutboundFrame) : List Byte :=
  [f.xid.extractLsb 7 0, f.xid.extractLsb 15 8, f.xid.extractLsb 23 16, (f.xid.extractLsb 28 24).setWidth 8,
   0, 0, BitVec.ofNat 8 (lenDlc f.len), 0] ++ f.data

/-! ## What a command may touch -/

/-- The `reads_ib` column of opcode_table.json (20_memory.md R51). -/
def readsInput : Instr → Bool
  | .crcCompute _ _ | .makeCanId _ _ _ _ _ | .createPacket _ _ _ _ _ => true
  | .sendMessage _ | .sendRequest _ _ | .sendResponse _ _ | .parseBuffer => true
  | .crcUpdate _ _ | .dlcToLen _ | .lenToDlc _ | .roundUpLen _ | .makeMessageId _ _ | .makeServiceId _ _ _ _ => false
  | .unpackId _ | .makeTail _ _ _ _ | .decodeTail _ | .init _ _ | .setNodeId _ | .readState => false

/-- The SEND_* commands, which advance TID (10_state.md R23). -/
def isSend : Instr → Bool
  | .sendMessage _ | .sendRequest _ _ | .sendResponse _ _ => true
  | .crcUpdate _ _ | .crcCompute _ _ | .dlcToLen _ | .lenToDlc _ | .roundUpLen _ | .makeMessageId _ _ => false
  | .makeServiceId _ _ _ _ | .makeCanId _ _ _ _ _ | .unpackId _ | .makeTail _ _ _ _ | .decodeTail _ => false
  | .createPacket _ _ _ _ _ | .parseBuffer | .init _ _ | .setNodeId _ | .readState => false

/-- The commands that read NODE_ID (10_state.md R27). -/
def readsNodeId : Instr → Bool
  | .createPacket _ _ _ _ _ | .readState => true
  | i => isSend i

/-- The commands that read MTU (10_state.md R27). -/
def readsMtu : Instr → Bool
  | .makeCanId _ _ _ _ _ | .createPacket _ _ _ _ _ | .parseBuffer | .readState => true
  | i => isSend i

/-- The commands that read TID (10_state.md R27). -/
def readsTid : Instr → Bool
  | .readState => true
  | i => isSend i

/-- The codes a command's execution may write to STATUS (60_exceptions.md R261; code 7 for the two commands whose
operand KIND may be illegal). -/
def allowedCodes : Instr → List (BitVec 8)
  | .crcUpdate _ _ | .decodeTail _ | .unpackId _ | .setNodeId _ | .readState => [0]
  | .crcCompute _ _ => [0, 6]
  | .dlcToLen _ | .lenToDlc _ | .roundUpLen _ | .init _ _ => [0, 2]
  | .makeMessageId _ _ | .makeServiceId _ _ _ _ => [0, 1]
  | .makeCanId _ _ _ _ _ => [0, 1, 4, 7]
  | .makeTail _ _ _ _ => [0, 5]
  | .createPacket _ _ _ _ _ => [0, 2, 4, 7]
  | .sendMessage _ | .sendRequest _ _ | .sendResponse _ _ => [0, 2, 4]
  | .parseBuffer => [0, 3]

/-- Two states that differ at most in TID_MODULUS, in TID by a multiple of 32, and in RES (44_fragmenter.md R191). -/
structure SameButCounter (s₁ s₂ : State) : Prop where
  nodeId : s₁.nodeId = s₂.nodeId
  mtu : s₁.mtu = s₂.mtu
  tid : s₁.tid.toNat % 32 = s₂.tid.toNat % 32
  status : s₁.status = s₂.status
  out : s₁.out = s₂.out
  port : s₁.port = s₂.port
  cfg : { s₁.cfg with tidModulus := s₂.cfg.tidModulus } = s₂.cfg

end Sys2Proof.Machine
end

