-- ==== Sys2Proof/Certificates/Slice0/Obligations.lean ====
section
/-! DEFINITION. The statements for the provers. Each docstring names the rule of spec/ it formalises; a clause that is the
model's own choice says so and names the log entry. -/

open Sys2Proof Sys2Proof.Machine

/-! ## The machine as a whole -/

/-- 10_state.md R33: the reset values. -/
def Obligations.ResetLeavesTheValuesOfTheRule : Prop :=
  State.reset.nodeId = 0xFF ∧ State.reset.mtu = 8 ∧ State.reset.tid = 0 ∧ State.reset.status = 0 ∧
    State.reset.res = 0 ∧ State.reset.out = []

/-- 70_reset_and_hazards.md R300, R301: a reset event puts every register to its reset value; with no move pending the
block is idle. MODEL's choices: the parameters and the host's later moves keep (log entry 8), and idling is a step that
changes nothing (log entry 5). -/
def Obligations.HostResetAndIdleSteps : Prop :=
  (∀ s : State, step { s with port := .reset :: s.port } =
    .next { s with nodeId := 0xFF, mtu := 8, tid := 0, status := 0, res := 0, out := [] }) ∧
  (∀ s : State, s.port = [] → step s = .next s)

/-- 20_memory.md R51, R58; 10_state.md R31: a command word that decodes is run by its meaning, and the list of commands
advances by one; a longer input than IBUF_CAP is not admitted (MODEL's refusal, log entry 4). -/
def Obligations.StepRunsTheDecodedCommand : Prop :=
  (∀ (s t : State) (w : CommandWord) (ib : List Byte) (i : Instr), ib.length ≤ s.cfg.ibufCap → decode w = .command i →
    exec i (s.issue w ib) = .next t → step (s.issue w ib) = .next { t with port := s.port }) ∧
  (∀ (s : State) (w : CommandWord) (ib : List Byte), s.cfg.ibufCap < ib.length →
    step (s.issue w ib) = .refused .inputTooLong)

/-- 10_state.md R33: the state after reset meets the invariant. It rests on the MODEL's capacities (log entry 3). -/
def Obligations.ResetStateIsLegal : Prop := State.reset.Inv

/-- 10_state.md R22 to R26, 30_encoding.md R97, R98, 00_scope.md R7: from every legal state, every step that answers a
next state answers a legal one: MTU stays legal, TID below its modulus, STATUS a code of R260, a failed command leaves RES
and OUT empty, every record of OUT keeps its shape, and OUT never overflows. -/
def Obligations.EveryStepKeepsTheStateLegal : Prop :=
  ∀ s t : State, s.Inv → step s = .next t → t.Inv

/-- 60_exceptions.md R265, 10_state.md R31: there is no stuck or halted state; a command whose input the port admits
(20_memory.md R51), legal or not, answers a next state, and the list of host moves is one shorter. MODEL's choices, which
these rules do not say: with no move pending a step answers a next state too, the list staying empty (log entry 5), and a
reset event keeps the parameters and the host's later moves (log entry 8). -/
def Obligations.EveryAdmittedStepAnswersNext : Prop :=
  ∀ s : State, (∀ cw ib rest, s.port = .command cw ib :: rest → ib.length ≤ s.cfg.ibufCap) →
    ∃ t, step s = .next t ∧ t.port = s.port.tail ∧ t.cfg = s.cfg

/-- 60_exceptions.md R262: a command that raises an error, its own or a decode error, writes STATUS, clears RES and OUT,
and changes nothing else. -/
def Obligations.FailedCommandChangesOnlyResults : Prop :=
  (∀ (i : Instr) (s t : State), exec i s = .next t → t.status ≠ 0 →
    t = { s with status := t.status, res := 0, out := [] } ∧ t.status ∈ allowedCodes i) ∧
  (∀ (s t : State) (w : CommandWord) (ib : List Byte), step (s.issue w ib) = .next t → t.status ≠ 0 →
    t = { s with status := t.status, res := 0, out := [] })

/-- 60_exceptions.md R260, R261: the codes each command may write. Code 7 of `exec` at KIND = 3 is the MODEL's choice, an
operand no decoded command carries (log entry 10). -/
def Obligations.EachCommandWritesOnlyItsCodes : Prop :=
  ∀ (i : Instr) (s t : State), exec i s = .next t → t.status ∈ allowedCodes i

/-- 70_reset_and_hazards.md R303: every command rewrites STATUS, RES and OUT, so none of them survives it. -/
def Obligations.OldResultsNeverShow : Prop :=
  ∀ (i : Instr) (s : State) (st : BitVec 8) (r : BitVec 64) (o : List OutRecord),
    exec i { s with status := st, res := r, out := o } = exec i s

/-- 20_memory.md R51: a command that does not read IB ignores its contents and length. -/
def Obligations.UnreadInputIsIgnored : Prop :=
  ∀ (i : Instr) (s t : State) (p : List HostMove), readsInput i = false → exec i s = .next t →
    exec i { s with port := p } = .next { t with port := p }

/-- 10_state.md R21 to R23, R27: which commands write NODE_ID, MTU and TID, and that no command writes the host's moves or
the parameters. -/
def Obligations.RegistersAreWrittenOnlyByTheirCommands : Prop :=
  ∀ (i : Instr) (s t : State), exec i s = .next t →
    (t.nodeId ≠ s.nodeId → (∃ n m, i = .init n m ∧ t.nodeId = n ∧ t.status = 0) ∨ ∃ n, i = .setNodeId n ∧ t.nodeId = n) ∧
    (t.mtu ≠ s.mtu → ∃ n m, i = .init n m ∧ t.mtu.toNat = m.toNat ∧ t.status = 0) ∧
    (t.tid ≠ s.tid → t.status = 0 ∧ ((∃ n m, i = .init n m ∧ t.tid = 0) ∨
      (isSend i = true ∧ t.tid.toNat = (s.tid.toNat + 1) % tidModulus s.cfg.tidModulus))) ∧
    t.port = s.port ∧ t.cfg = s.cfg

/-- 10_state.md R27: a command that does not read NODE_ID, MTU or TID gives the same results and the same other registers
whatever that register holds. -/
def Obligations.UnreadRegistersDoNotShow : Prop :=
  ∀ (i : Instr) (s t : State), exec i s = .next t →
    (readsNodeId i = false → ∀ v, ∃ u, exec i { s with nodeId := v } = .next u ∧
      u.status = t.status ∧ u.res = t.res ∧ u.out = t.out ∧ u.mtu = t.mtu ∧ u.tid = t.tid) ∧
    (readsMtu i = false → ∀ v, ∃ u, exec i { s with mtu := v } = .next u ∧
      u.status = t.status ∧ u.res = t.res ∧ u.out = t.out ∧ u.nodeId = t.nodeId ∧ u.tid = t.tid) ∧
    (readsTid i = false → ∀ v, ∃ u, exec i { s with tid := v } = .next u ∧
      u.status = t.status ∧ u.res = t.res ∧ u.out = t.out ∧ u.nodeId = t.nodeId ∧ u.mtu = t.mtu)

/-- 70_reset_and_hazards.md R302, the spec's own derivation "the last sentence, from 42_can_id.md rule R143 and
44_fragmenter.md rule R181": before INIT the block is an anonymous node with MTU 8, so SEND_MESSAGE succeeds for
single-frame payloads only, and the service commands fail with InvalidCanId. -/
def Obligations.BeforeInitOnlyShortMessagesAreSent : Prop :=
  ∀ s : State, s.nodeId = State.reset.nodeId → s.mtu = State.reset.mtu →
    (∀ subject, ∃ t, exec (.sendMessage subject) s = .next t ∧ (t.status = 0 ∨ t.status = 4) ∧
      (t.status = 0 ↔ subject.toNat ≤ 8191 ∧ s.ib.length ≤ 7)) ∧
    (∀ dst service, exec (.sendRequest dst service) s = .next { s with status := 4, res := 0, out := [] } ∧
      exec (.sendResponse dst service) s = .next { s with status := 4, res := 0, out := [] })

/-! ## Encoding -/

/-- 30_encoding.md R80 to R87: decoding the encoded word of a well-formed command gives the command back. -/
def Obligations.EncodedCommandsDecodeBack : Prop :=
  ∀ i : Instr, i.wellFormed = true → decode (encode i) = .command i

/-- 30_encoding.md R83, R89: a word that decodes is the one word of its command, and the command is well formed. -/
def Obligations.DecodedWordsEncodeBack : Prop :=
  ∀ (w : CommandWord) (i : Instr), decode w = .command i → encode i = w ∧ i.wellFormed = true

/-- Words written out from 30_encoding.md R80 to R82, one or more of every family. -/
def Obligations.SampleWordsDecode : Prop :=
  decode 0x000000FFFF003101 = .command (.crcUpdate 0x31 0xFFFF) ∧
  decode 0x000900FFFF000002 = .command (.crcCompute 0xFFFF 9) ∧
  decode 0x0000000021000011 = .command (.lenToDlc 33) ∧
  decode 0x00002001AE072A21 = .command (.makeServiceId 42 7 430 true) ∧
  decode 0x00001401AE2A0722 = .command (.makeCanId 7 42 430 4 2) ∧
  decode 0x000000126B950723 = .command (.unpackId 0x126B9507) ∧
  decode 0x0000A00000000530 = .command (.makeTail 5 true false true) ∧
  decode 0x00000C01AE070040 = .command (.createPacket 0 7 430 4 1) ∧
  decode 0x00000001AE070042 = .command (.sendRequest 7 430) ∧
  decode 0x0000000000000050 = .command .parseBuffer ∧
  decode 0x0000000040002A70 = .command (.init 42 64)

/-- 30_encoding.md R88: the opcode is looked up first, then the reserved bits are checked, then KIND; only a word that
passes all three is a command. -/
def Obligations.DecodeChecksInOrder : Prop :=
  (∀ w : CommandWord, w.extractLsb 7 0 ∉ opcodeMasks.map Prod.fst → decode w = .rejected .reservedOpcode) ∧
  (∀ row ∈ opcodeMasks, ∀ w : CommandWord, w.extractLsb 7 0 = row.1 → w &&& row.2 ≠ row.1.setWidth 64 →
    decode w = .rejected .reservedBits) ∧
  (∀ row ∈ opcodeMasks, ∀ w : CommandWord, w &&& row.2 = row.1.setWidth 64 →
    (row.1 = 0x22 ∨ row.1 = 0x40) → w.extractLsb 44 43 = 3 → decode w = .rejected .reservedKind) ∧
  (∀ row ∈ opcodeMasks, ∀ w : CommandWord, w &&& row.2 = row.1.setWidth 64 →
    ((row.1 = 0x22 ∨ row.1 = 0x40) → w.extractLsb 44 43 ≠ 3) → ∃ i, decode w = .command i ∧ i.wellFormed = true)

/-- 30_encoding.md R83, R85, and the first sentence of R84: a reserved opcode, a reserved bit and KIND = 3 each fail with IllegalCommand and change
nothing else; every other word, whatever its PRI, decodes. -/
def Obligations.IllegalWordsFailWithIllegalCommand : Prop :=
  (∀ (s : State) (w : CommandWord) (ib : List Byte), ib.length ≤ s.cfg.ibufCap →
    w.extractLsb 7 0 ∉ opcodeMasks.map Prod.fst →
    step (s.issue w ib) = .next { s with status := 7, res := 0, out := [] }) ∧
  (∀ row ∈ opcodeMasks, ∀ (s : State) (w : CommandWord) (ib : List Byte), ib.length ≤ s.cfg.ibufCap →
    w.extractLsb 7 0 = row.1 → w &&& row.2 ≠ row.1.setWidth 64 →
    step (s.issue w ib) = .next { s with status := 7, res := 0, out := [] }) ∧
  (∀ row ∈ opcodeMasks, ∀ (s : State) (w : CommandWord) (ib : List Byte), ib.length ≤ s.cfg.ibufCap →
    (row.1 = 0x22 ∨ row.1 = 0x40) → w &&& row.2 = row.1.setWidth 64 → w.extractLsb 44 43 = 3 →
    step (s.issue w ib) = .next { s with status := 7, res := 0, out := [] }) ∧
  (∀ row ∈ opcodeMasks, ∀ w : CommandWord, w &&& row.2 = row.1.setWidth 64 →
    ((row.1 = 0x22 ∨ row.1 = 0x40) → w.extractLsb 44 43 ≠ 3) → ∃ i, decode w = .command i)

/-! ## CRC engine -/

/-- 40_crc.md R120: `crc_update` is eight single-bit steps after the byte is XOR-ed into the high byte. -/
def Obligations.CrcUpdateIsEightBitSteps : Prop :=
  ∀ (c : BitVec 16) (b : BitVec 8), crcUpdate c b =
    (fun x : BitVec 16 => if x.getLsbD 15 = true then ((x <<< 1) &&& 0xFFFF) ^^^ 0x1021 else (x <<< 1) &&& 0xFFFF)^[8]
      (c ^^^ (b.setWidth 16 <<< 8))

/-- 40_crc.md R121: CRC_UPDATE. -/
def Obligations.CrcUpdateCommand : Prop :=
  (∀ (byte : BitVec 8) (crc : BitVec 16) (s : State), exec (.crcUpdate byte crc) s =
    .next { s with status := 0, res := (crcUpdate crc byte).setWidth 64, out := [] }) ∧
  EncodedAs 0x01 0xFFFFFF0000FF00FF (fun w => .crcUpdate (w.extractLsb 15 8) (w.extractLsb 39 24)) ∧
  crcUpdate 0x0000 0x00 = 0x0000 ∧ crcUpdate 0x0000 0x01 = 0x1021 ∧ crcUpdate 0xFFFF 0xFF = 0xFF00 ∧
  (∀ s : State, exec (.crcUpdate 0x31 0xFFFF) s = .next { s with status := 0, res := 0xC782, out := [] })

/-- 40_crc.md R122: `crc_compute` folds the bytes in index order from the initial state, and fails with LengthMismatch
when the declared length is wrong; only CRC_COMPUTE raises that error (code 6). -/
def Obligations.CrcComputeFoldsTheBytes : Prop :=
  (∀ (c : BitVec 16) (d : Nat) (data : List Byte),
    (d = data.length → crcCompute c d data = .ok (data.foldl crcUpdate c)) ∧
    (d ≠ data.length → crcCompute c d data = .error .lengthMismatch)) ∧
  (∀ data : List Byte, crcCompute 0xFFFF data.length data = .ok (crc16 data)) ∧
  (∀ (i : Instr) (s t : State), exec i s = .next t → t.status = 6 → ∃ c d, i = .crcCompute c d)

/-- 40_crc.md R123: CRC_COMPUTE. -/
def Obligations.CrcComputeCommand : Prop :=
  (∀ (initial declared : BitVec 16) (s : State), declared.toNat = s.ib.length →
    exec (.crcCompute initial declared) s =
      .next { s with status := 0, res := (s.ib.foldl crcUpdate initial).setWidth 64, out := [] }) ∧
  (∀ (initial declared : BitVec 16) (s : State), declared.toNat ≠ s.ib.length →
    exec (.crcCompute initial declared) s = .next { s with status := 6, res := 0, out := [] }) ∧
  EncodedAs 0x02 0x0000FF0000FFFFFF (fun w => .crcCompute (w.extractLsb 39 24) (w.extractLsb 63 48)) ∧
  (∀ (initial : BitVec 16) (s : State), s.ib = [] →
    exec (.crcCompute initial 0) s = .next { s with status := 0, res := initial.setWidth 64, out := [] }) ∧
  (∀ (c : BitVec 16) (x y : List Byte), (x ++ y).foldl crcUpdate c = y.foldl crcUpdate (x.foldl crcUpdate c)) ∧
  (∀ s : State, s.ib = [0x31, 0x32, 0x33, 0x34, 0x35, 0x36, 0x37, 0x38, 0x39] →
    exec (.crcCompute 0xFFFF 9) s = .next { s with status := 0, res := 0x29B1, out := [] })

/-- 40_crc.md: chaining, the spec's own derivation "from rule R122, which folds bytes left to right". -/
def Obligations.CrcChains : Prop :=
  ∀ (c m : BitVec 16) (x y : List Byte), crcCompute c x.length x = .ok m →
    crcCompute c (x ++ y).length (x ++ y) = crcCompute m y.length y

/-- 40_crc.md: the residue over data and big-endian trailer is 0, and so is the CRC over all non-tail bytes of a
multi-frame transfer; the spec's own derivation "from rule R120 (no final exclusive OR, no reflection) and rule R122". -/
def Obligations.CrcResidueIsZero : Prop :=
  (∀ x : List Byte, crc16 (x ++ [(crc16 x).extractLsb 15 8, (crc16 x).extractLsb 7 0]) = 0) ∧
  (∀ (xid : CanId) (tid : BitVec 8) (payload : List Byte) (mtu : BitVec 7) (fs : List OutboundFrame),
    legalMtu mtu.toNat = true → presentationMtu mtu < payload.length →
    multiFrame xid tid payload (presentationMtu mtu) mtu.toNat = .ok fs → crc16 (fs.flatMap OutboundFrame.body) = 0)

/-! ## DLC quantizer -/

/-- 41_dlc.md R130 and the definition of LEN_TO_DLC: the two tables; the second in full is the spec's own derivation "the
table is computed from rule R130". -/
def Obligations.LenToDlcIsTheLeastFittingDlc : Prop :=
  (List.range 16).map dlcLen = [0, 1, 2, 3, 4, 5, 6, 7, 8, 12, 16, 20, 24, 32, 48, 64] ∧
  (∀ n, n ≤ 64 → lenDlc n ≤ 15 ∧ n ≤ dlcLen (lenDlc n) ∧ ∀ d, d < lenDlc n → dlcLen d < n) ∧
  (∀ n, (n ≤ 8 → lenDlc n = n) ∧ (9 ≤ n → n ≤ 12 → lenDlc n = 9) ∧ (13 ≤ n → n ≤ 16 → lenDlc n = 10) ∧
    (17 ≤ n → n ≤ 20 → lenDlc n = 11) ∧ (21 ≤ n → n ≤ 24 → lenDlc n = 12) ∧ (25 ≤ n → n ≤ 32 → lenDlc n = 13) ∧
    (33 ≤ n → n ≤ 48 → lenDlc n = 14) ∧ (49 ≤ n → n ≤ 64 → lenDlc n = 15))

/-- 41_dlc.md R132, and the spec's own derivation "from rules R130 to R132": rounding up gives the least frame length that
fits, is the identity on frame lengths, and the tables invert each other. -/
def Obligations.RoundingGivesTheLeastFrameLength : Prop :=
  (∀ n, 64 < n → roundUpFrameLength n = .error .invalidFrameSize) ∧
  (∀ n, n ≤ 64 → ∃ m, roundUpFrameLength n = .ok m ∧ m = dlcLen (lenDlc n) ∧ n ≤ m ∧
    (∃ d, d ≤ 15 ∧ m = dlcLen d) ∧ (∀ d, d ≤ 15 → n ≤ dlcLen d → m ≤ dlcLen d) ∧
    (n ≤ 8 → m = n) ∧ (9 ≤ n → n ≤ 12 → m = 12) ∧ (13 ≤ n → n ≤ 16 → m = 16) ∧ (17 ≤ n → n ≤ 20 → m = 20) ∧
    (21 ≤ n → n ≤ 24 → m = 24) ∧ (25 ≤ n → n ≤ 32 → m = 32) ∧ (33 ≤ n → n ≤ 48 → m = 48) ∧ (49 ≤ n → m = 64)) ∧
  (∀ d, d ≤ 15 → roundUpFrameLength (dlcLen d) = .ok (dlcLen d) ∧ lenDlc (dlcLen d) = d)

/-- 41_dlc.md R133: DLC_TO_LEN. -/
def Obligations.DlcToLenCommand : Prop :=
  (∀ (dlc : BitVec 8) (s : State), dlc.toNat ≤ 15 → exec (.dlcToLen dlc) s =
    .next { s with status := 0, res := BitVec.ofNat 64 (dlcLen dlc.toNat), out := [] }) ∧
  (∀ (dlc : BitVec 8) (s : State), 15 < dlc.toNat → exec (.dlcToLen dlc) s =
    .next { s with status := 2, res := 0, out := [] }) ∧
  EncodedAs 0x10 0xFFFFFFFFFFFF00FF (fun w => .dlcToLen (w.extractLsb 15 8)) ∧
  dlcLen 0 = 0 ∧ dlcLen 8 = 8 ∧ dlcLen 9 = 12 ∧ dlcLen 15 = 64 ∧
  (∀ s : State, exec (.dlcToLen 13) s = .next { s with status := 0, res := 32, out := [] })

/-- 41_dlc.md R134: LEN_TO_DLC gives the DLC of the smallest length at least n. -/
def Obligations.LenToDlcCommand : Prop :=
  (∀ (n : BitVec 16) (s : State), n.toNat ≤ 64 → exec (.lenToDlc n) s =
      .next { s with status := 0, res := BitVec.ofNat 64 (lenDlc n.toNat), out := [] } ∧
    n.toNat ≤ dlcLen (lenDlc n.toNat) ∧ ∀ d, d < lenDlc n.toNat → dlcLen d < n.toNat) ∧
  (∀ (n : BitVec 16) (s : State), 64 < n.toNat → exec (.lenToDlc n) s =
    .next { s with status := 2, res := 0, out := [] }) ∧
  EncodedAs 0x11 0xFFFFFF0000FFFFFF (fun w => .lenToDlc (w.extractLsb 39 24)) ∧
  lenDlc 0 = 0 ∧ lenDlc 9 = 9 ∧ lenDlc 64 = 15 ∧
  (∀ s : State, exec (.lenToDlc 65) s = .next { s with status := 2, res := 0, out := [] }) ∧
  (∀ s : State, exec (.lenToDlc 33) s = .next { s with status := 0, res := 14, out := [] })

/-- 41_dlc.md R135: ROUND_UP_LEN. -/
def Obligations.RoundUpLenCommand : Prop :=
  (∀ (n : BitVec 16) (s : State), n.toNat ≤ 64 → ∃ m, roundUpFrameLength n.toNat = .ok m ∧
    exec (.roundUpLen n) s = .next { s with status := 0, res := BitVec.ofNat 64 m, out := [] }) ∧
  (∀ (n : BitVec 16) (s : State), 64 < n.toNat → exec (.roundUpLen n) s =
    .next { s with status := 2, res := 0, out := [] }) ∧
  EncodedAs 0x12 0xFFFFFF0000FFFFFF (fun w => .roundUpLen (w.extractLsb 39 24)) ∧
  (∀ s : State, exec (.roundUpLen 0) s = .next { s with status := 0, res := 0, out := [] } ∧
    exec (.roundUpLen 8) s = .next { s with status := 0, res := 8, out := [] } ∧
    exec (.roundUpLen 9) s = .next { s with status := 0, res := 12, out := [] } ∧
    exec (.roundUpLen 64) s = .next { s with status := 0, res := 64, out := [] } ∧
    exec (.roundUpLen 65) s = .next { s with status := 2, res := 0, out := [] } ∧
    exec (.roundUpLen 10) s = .next { s with status := 0, res := 12, out := [] })

/-! ## CAN identifiers -/

/-- 42_can_id.md R140: `make_message_id`. -/
def Obligations.MessageIdPlacesItsFields : Prop :=
  (∀ (subject : BitVec 16) (src : BitVec 8), src.toNat ≤ 127 → subject.toNat ≤ 8191 →
    ∃ id, makeMessageId subject src = .ok id ∧ id.toNat = subject.toNat * 2 ^ 8 + src.toNat ∧
      id.extractLsb 28 26 = 0 ∧ id.getLsbD 25 = false ∧ id.getLsbD 24 = false ∧ id.extractLsb 23 21 = 0 ∧
      id.getLsbD 7 = false) ∧
  (∀ (subject : BitVec 16) (src : BitVec 8), (127 < src.toNat ∨ 8191 < subject.toNat) →
    makeMessageId subject src = .error .invalidArgument)

/-- 42_can_id.md R141: `make_service_id`. -/
def Obligations.ServiceIdPlacesItsFields : Prop :=
  (∀ (service : BitVec 16) (req : Bool) (src dst : BitVec 8), src.toNat ≤ 127 → dst.toNat ≤ 127 → service.toNat ≤ 511 →
    ∃ id, makeServiceId service req src dst = .ok id ∧
      id.toNat = 2 ^ 25 + req.toNat * 2 ^ 24 + service.toNat * 2 ^ 14 + dst.toNat * 2 ^ 7 + src.toNat ∧
      id.extractLsb 28 26 = 0 ∧ id.getLsbD 23 = false ∧ (id.extractLsb 22 14).toNat = service.toNat) ∧
  (∀ (service : BitVec 16) (req : Bool) (src dst : BitVec 8),
    (127 < src.toNat ∨ 127 < dst.toNat ∨ 511 < service.toNat) →
    makeServiceId service req src dst = .error .invalidArgument)

/-- 42_can_id.md R143: `make_can_id`, case by case. -/
def Obligations.CanIdBuilderFollowsItsCases : Prop :=
  ∀ (prio : BitVec 3) (portId : BitVec 16) (remote : BitVec 8) (payload : List Byte) (loc : BitVec 8) (mtu : BitVec 7),
    (128 ≤ remote.toNat → portId.toNat ≤ 8191 → loc.toNat ≤ 127 →
      (prio.toNat * 2 ^ 26 + portId.toNat * 2 ^ 8 + loc.toNat = 0 →
        makeCanId prio .message portId remote payload loc mtu = .error .invalidCanId) ∧
      (prio.toNat * 2 ^ 26 + portId.toNat * 2 ^ 8 + loc.toNat ≠ 0 →
        ∃ id, makeCanId prio .message portId remote payload loc mtu = .ok id ∧
          id.toNat = prio.toNat * 2 ^ 26 + portId.toNat * 2 ^ 8 + loc.toNat)) ∧
    (128 ≤ remote.toNat → portId.toNat ≤ 8191 → 128 ≤ loc.toNat → payload.length ≤ presentationMtu mtu →
      ∃ id, makeCanId prio .message portId remote payload loc mtu = .ok id ∧
        id.toNat = prio.toNat * 2 ^ 26 + 2 ^ 24 + portId.toNat * 2 ^ 8 + (crc16 payload).toNat % 128) ∧
    (128 ≤ remote.toNat → portId.toNat ≤ 8191 → 128 ≤ loc.toNat → presentationMtu mtu < payload.length →
      makeCanId prio .message portId remote payload loc mtu = .error .invalidArgument) ∧
    ((remote.toNat ≤ 127 ∨ 8191 < portId.toNat) →
      makeCanId prio .message portId remote payload loc mtu = .error .invalidArgument) ∧
    (remote.toNat ≤ 127 → portId.toNat ≤ 511 → loc.toNat ≤ 127 →
      (∃ id, makeCanId prio .request portId remote payload loc mtu = .ok id ∧ id.toNat =
        prio.toNat * 2 ^ 26 + 2 ^ 25 + 2 ^ 24 + portId.toNat * 2 ^ 14 + remote.toNat * 2 ^ 7 + loc.toNat) ∧
      (∃ id, makeCanId prio .response portId remote payload loc mtu = .ok id ∧ id.toNat =
        prio.toNat * 2 ^ 26 + 2 ^ 25 + portId.toNat * 2 ^ 14 + remote.toNat * 2 ^ 7 + loc.toNat)) ∧
    ((127 < remote.toNat ∨ 511 < portId.toNat ∨ 127 < loc.toNat) →
      makeCanId prio .request portId remote payload loc mtu = .error .invalidArgument ∧
      makeCanId prio .response portId remote payload loc mtu = .error .invalidArgument)

/-- 42_can_id.md, the spec's own derivation "from rules R140, R141 and R143": the zero identifier arises exactly for a Message (to an unset remote node) with local node id 0,
subject id 0 and priority 0; a service identifier has bit 25 set and an anonymous one bit 24. -/
def Obligations.ZeroIdentifierArisesExactlyOnce : Prop :=
  ∀ (prio : BitVec 3) (k : TransferKind) (portId : BitVec 16) (remote : BitVec 8) (payload : List Byte)
    (loc : BitVec 8) (mtu : BitVec 7),
    (makeCanId prio k portId remote payload loc mtu = .error .invalidCanId ↔
      k = .message ∧ 128 ≤ remote.toNat ∧ loc = 0 ∧ portId = 0 ∧ prio = 0) ∧
    (∀ id, makeCanId prio k portId remote payload loc mtu = .ok id → id ≠ 0 ∧
      (k ≠ .message → id.getLsbD 25 = true) ∧ (128 ≤ loc.toNat → id.getLsbD 24 = true))

/-- 42_can_id.md R145: MAKE_MESSAGE_ID. -/
def Obligations.MakeMessageIdCommand : Prop :=
  (∀ (src : BitVec 8) (subject : BitVec 16) (s : State), src.toNat ≤ 127 → subject.toNat ≤ 8191 →
    ∃ id, makeMessageId subject src = .ok id ∧
      exec (.makeMessageId src subject) s = .next { s with status := 0, res := id.setWidth 64, out := [] }) ∧
  (∀ (src : BitVec 8) (subject : BitVec 16) (s : State), (127 < src.toNat ∨ 8191 < subject.toNat) →
    exec (.makeMessageId src subject) s = .next { s with status := 1, res := 0, out := [] }) ∧
  EncodedAs 0x20 0xFFFFFF0000FF00FF (fun w => .makeMessageId (w.extractLsb 15 8) (w.extractLsb 39 24)) ∧
  (∀ s : State, exec (.makeMessageId 0 0) s = .next { s with status := 0, res := 0, out := [] } ∧
    exec (.makeMessageId 127 8191) s = .next { s with status := 0, res := 0x1FFF7F, out := [] } ∧
    exec (.makeMessageId 0 8192) s = .next { s with status := 1, res := 0, out := [] } ∧
    exec (.makeMessageId 128 0) s = .next { s with status := 1, res := 0, out := [] } ∧
    exec (.makeMessageId 10 100) s = .next { s with status := 0, res := 0x640A, out := [] })

/-- 42_can_id.md R146: MAKE_SERVICE_ID. -/
def Obligations.MakeServiceIdCommand : Prop :=
  (∀ (src dst : BitVec 8) (service : BitVec 16) (req : Bool) (s : State),
    src.toNat ≤ 127 → dst.toNat ≤ 127 → service.toNat ≤ 511 →
    ∃ id, makeServiceId service req src dst = .ok id ∧
      exec (.makeServiceId src dst service req) s = .next { s with status := 0, res := id.setWidth 64, out := [] }) ∧
  (∀ (src dst : BitVec 8) (service : BitVec 16) (req : Bool) (s : State),
    (127 < src.toNat ∨ 127 < dst.toNat ∨ 511 < service.toNat) →
    exec (.makeServiceId src dst service req) s = .next { s with status := 1, res := 0, out := [] }) ∧
  EncodedAs 0x21 0xFFFFDF00000000FF
    (fun w => .makeServiceId (w.extractLsb 15 8) (w.extractLsb 23 16) (w.extractLsb 39 24) (w.getLsbD 45)) ∧
  (∀ s : State, exec (.makeServiceId 0 0 0 false) s = .next { s with status := 0, res := 0x02000000, out := [] } ∧
    exec (.makeServiceId 127 127 511 true) s = .next { s with status := 0, res := 0x037FFFFF, out := [] } ∧
    exec (.makeServiceId 0 0 512 false) s = .next { s with status := 1, res := 0, out := [] } ∧
    exec (.makeServiceId 42 7 430 true) s = .next { s with status := 0, res := 0x036B83AA, out := [] })

/-- 42_can_id.md R147: MAKE_CAN_ID. -/
def Obligations.MakeCanIdCommand : Prop :=
  (∀ (loc remote : BitVec 8) (portId : BitVec 16) (prio : BitVec 3) (k : TransferKind) (s : State),
    (idAccepted prio k portId remote s.ib loc s.mtu → ∃ id, makeCanId prio k portId remote s.ib loc s.mtu = .ok id ∧
      exec (.makeCanId loc remote portId prio (kindCode k)) s =
        .next { s with status := 0, res := id.setWidth 64, out := [] }) ∧
    (k = .message ∧ 128 ≤ remote.toNat ∧ loc = 0 ∧ portId = 0 ∧ prio = 0 →
      exec (.makeCanId loc remote portId prio (kindCode k)) s = .next { s with status := 4, res := 0, out := [] }) ∧
    (¬idAccepted prio k portId remote s.ib loc s.mtu →
      ¬(k = .message ∧ 128 ≤ remote.toNat ∧ loc = 0 ∧ portId = 0 ∧ prio = 0) →
      exec (.makeCanId loc remote portId prio (kindCode k)) s = .next { s with status := 1, res := 0, out := [] })) ∧
  EncodedAs 0x22 0xFFFFE000000000FF (fun w => .makeCanId (w.extractLsb 15 8) (w.extractLsb 23 16) (w.extractLsb 39 24)
    (w.extractLsb 42 40) (w.extractLsb 44 43)) ∧
  (∀ (w : CommandWord) (s : State) (ib : List Byte), w &&& 0xFFFFE000000000FF = 0x22 → w.extractLsb 44 43 = 3 →
    ib.length ≤ s.cfg.ibufCap → step (s.issue w ib) = .next { s with status := 7, res := 0, out := [] }) ∧
  (∀ (loc remote : BitVec 8) (portId : BitVec 16) (prio : BitVec 3) (mtu : BitVec 7) (payload : List Byte),
    128 ≤ loc.toNat → 128 ≤ remote.toNat → portId.toNat ≤ 8191 →
    (∃ id, makeCanId prio .message portId remote [] loc mtu = .ok id ∧ id.extractLsb 6 0 = 0x7F) ∧
    (payload.length = presentationMtu mtu → ∃ id, makeCanId prio .message portId remote payload loc mtu = .ok id) ∧
    (payload.length = presentationMtu mtu + 1 →
      makeCanId prio .message portId remote payload loc mtu = .error .invalidArgument)) ∧
  (∀ s : State, s.mtu = 8 → s.ib = [1, 2, 3] →
    exec (.makeCanId 0xFF 0xFF 100 4 0) s = .next { s with status := 0, res := 0x1100642D, out := [] })

/-- 42_can_id.md R148: what `unpack_id` extracts, and which bits it ignores. -/
def Obligations.UnpackExtractsTheLayoutFields : Prop :=
  (∀ (msb : SubjectRxMsb) (x : CanId), x.getLsbD 25 = false →
    (unpackId msb x).kind = .message ∧ (unpackId msb x).priority = x.extractLsb 28 26 ∧
    (unpackId msb x).dst = 0xFF ∧
    (unpackId msb x).src.toNat = (if x.getLsbD 24 = true then 255 else x.toNat % 2 ^ 7) ∧
    (unpackId msb x).portId.toNat = x.toNat / 2 ^ 8 % (if msb = .bit21 then 2 ^ 14 else 2 ^ 13)) ∧
  (∀ (msb : SubjectRxMsb) (x : CanId), x.getLsbD 25 = true →
    (unpackId msb x).kind = (if x.getLsbD 24 = true then .request else .response) ∧
    (unpackId msb x).priority = x.extractLsb 28 26 ∧ (unpackId msb x).portId.toNat = x.toNat / 2 ^ 14 % 2 ^ 9 ∧
    (unpackId msb x).dst.toNat = x.toNat / 2 ^ 7 % 2 ^ 7 ∧ (unpackId msb x).src.toNat = x.toNat % 2 ^ 7) ∧
  (∀ (msb : SubjectRxMsb) (x m : CanId), x.getLsbD 25 = false →
    (∀ j, m.getLsbD j = true → j = 23 ∨ j = 22 ∨ j = 7 ∨ (j = 21 ∧ msb = .bit20)) →
    unpackId msb (x ^^^ m) = unpackId msb x) ∧
  (∀ (msb : SubjectRxMsb) (x m : CanId), x.getLsbD 25 = true → (∀ j, m.getLsbD j = true → j = 23) →
    unpackId msb (x ^^^ m) = unpackId msb x) ∧
  (∀ y : BitVec 32, ((y.setWidth 29 : CanId).setWidth 32) = y &&& 0x1FFFFFFF) ∧
  (∃ x : CanId, x.getLsbD 21 = true ∧ 8191 < (unpackId .bit21 x).portId.toNat)

/-- 42_can_id.md R149: UNPACK_ID. -/
def Obligations.UnpackIdCommand : Prop :=
  (∀ (x : BitVec 32) (s : State), exec (.unpackId x) s =
    .next { s with
      status := 0
      res := (unpackId s.cfg.subjectRxMsb (x.setWidth 29)).portId.setWidth 64
        ||| ((unpackId s.cfg.subjectRxMsb (x.setWidth 29)).src.setWidth 64 <<< 16)
        ||| ((unpackId s.cfg.subjectRxMsb (x.setWidth 29)).dst.setWidth 64 <<< 24)
        ||| ((unpackId s.cfg.subjectRxMsb (x.setWidth 29)).priority.setWidth 64 <<< 32)
        ||| ((kindCode (unpackId s.cfg.subjectRxMsb (x.setWidth 29)).kind).setWidth 64 <<< 35)
      out := [] }) ∧
  EncodedAs 0x23 0xFFFFFF00000000FF (fun w => .unpackId (w.extractLsb 39 8)) ∧
  (∀ msb, unpackId msb ((0xFFFFFFFF : BitVec 32).setWidth 29) = ⟨7, .request, 511, 127, 127⟩) ∧
  (∀ (msb : SubjectRxMsb) (x : CanId), x.getLsbD 25 = false → (unpackId msb x).dst = 0xFF ∧
    (x.getLsbD 24 = true → (unpackId msb x).src = 0xFF)) ∧
  (∀ s : State, exec (.unpackId 0x126B9507) s = .next { s with status := 0, res := 0x142A0701AE, out := [] })

/-- 42_can_id.md, the spec's own derivation "from rules R140, R141, R143 and R148": the round trip of the identifier,
under either value of SUBJECT_RX_MSB; the anonymous source is lost. -/
def Obligations.IdentifiersRoundTrip : Prop :=
  ∀ (msb : SubjectRxMsb) (prio : BitVec 3) (k : TransferKind) (portId : BitVec 16) (remote : BitVec 8)
    (payload : List Byte) (loc : BitVec 8) (mtu : BitVec 7) (id : CanId),
    makeCanId prio k portId remote payload loc mtu = .ok id →
    (loc.toNat ≤ 127 →
      unpackId msb id = ⟨prio, k, portId, loc, if k = .message then 0xFF else remote⟩) ∧
    (128 ≤ loc.toNat → unpackId msb id = ⟨prio, .message, portId, 0xFF, 0xFF⟩)

/-! ## Tail bytes -/

/-- 43_tail_byte.md R170, R171: `make_tail_byte` and MAKE_TAIL. -/
def Obligations.MakeTailCommand : Prop :=
  (∀ (tid : BitVec 8) (startBit endBit toggle : Bool), (startBit = false ∨ toggle = true) →
    ∃ t, makeTailByte startBit endBit toggle tid = .ok t ∧
      t.toNat = startBit.toNat * 128 + endBit.toNat * 64 + toggle.toNat * 32 + tid.toNat % 32 ∧
      ∀ s : State, exec (.makeTail tid startBit endBit toggle) s =
        .next { s with status := 0, res := t.setWidth 64, out := [] }) ∧
  (∀ (tid : BitVec 8) (endBit : Bool), makeTailByte true endBit false tid = .error .invalidState ∧
    ∀ s : State, exec (.makeTail tid true endBit false) s = .next { s with status := 5, res := 0, out := [] }) ∧
  EncodedAs 0x30 0xFFFF1FFFFFFF00FF
    (fun w => .makeTail (w.extractLsb 15 8) (w.getLsbD 47) (w.getLsbD 46) (w.getLsbD 45)) ∧
  (∀ s : State, exec (.makeTail 31 true true true) s = .next { s with status := 0, res := 0xFF, out := [] } ∧
    exec (.makeTail 37 true true true) s = .next { s with status := 0, res := 0xE5, out := [] } ∧
    exec (.makeTail 0 false false false) s = .next { s with status := 0, res := 0x00, out := [] } ∧
    exec (.makeTail 5 true false true) s = .next { s with status := 0, res := 0xA5, out := [] })

/-- 43_tail_byte.md R172, R173: `decode_tail`, the frame type, and DECODE_TAIL. -/
def Obligations.DecodeTailCommand : Prop :=
  (∀ t : BitVec 8, (decodeTail t).startBit = t.getLsbD 7 ∧ (decodeTail t).endBit = t.getLsbD 6 ∧
    (decodeTail t).toggle = t.getLsbD 5 ∧ (decodeTail t).transferId = t.extractLsb 4 0) ∧
  (frameTypeCode (frameTypeOf true true) = 0 ∧ frameTypeCode (frameTypeOf true false) = 1 ∧
    frameTypeCode (frameTypeOf false true) = 2 ∧ frameTypeCode (frameTypeOf false false) = 3) ∧
  (∀ (tail : BitVec 8) (s : State), exec (.decodeTail tail) s =
    .next { s with
      status := 0
      res := tail.setWidth 64 |||
        ((frameTypeCode (frameTypeOf (tail.getLsbD 7) (tail.getLsbD 6))).setWidth 64 <<< 8)
      out := [] }) ∧
  EncodedAs 0x31 0xFFFFFFFFFFFF00FF (fun w => .decodeTail (w.extractLsb 15 8)) ∧
  (∀ s : State, exec (.decodeTail 0x00) s = .next { s with status := 0, res := 0x300, out := [] } ∧
    exec (.decodeTail 0x1F) s = .next { s with status := 0, res := 0x31F, out := [] } ∧
    exec (.decodeTail 0x9F) s = .next { s with status := 0, res := 0x19F, out := [] } ∧
    exec (.decodeTail 0x41) s = .next { s with status := 0, res := 0x241, out := [] })

/-- 43_tail_byte.md, the spec's own derivation "from rules R170 and R172": the tail byte round trip. -/
def Obligations.TailBytesRoundTrip : Prop :=
  ∀ (startBit endBit toggle : Bool) (tid : BitVec 8), tid.toNat ≤ 31 → ¬(startBit = true ∧ toggle = false) →
    ∃ t, makeTailByte startBit endBit toggle tid = .ok t ∧
      (decodeTail t).startBit = startBit ∧ (decodeTail t).endBit = endBit ∧ (decodeTail t).toggle = toggle ∧
      (decodeTail t).transferId.toNat = tid.toNat

/-! ## Fragmenter -/

/-- 44_fragmenter.md R180: the presentation-layer MTU never fails; that it is MTU - 1 for a legal MTU is the spec's own
derivation "the simplification, from rule R132 and 10_state.md rule R22". -/
def Obligations.PresentationMtuIsMtuLessOne : Prop :=
  (∀ mtu : BitVec 7, roundUpFrameLength (min (max mtu.toNat 8) 64) = .ok (presentationMtu mtu + 1)) ∧
  (∀ mtu : BitVec 7, legalMtu mtu.toNat = true → presentationMtu mtu = mtu.toNat - 1 ∧
    presentationMtu mtu ∈ [7, 11, 15, 19, 23, 31, 47, 63])

/-- 44_fragmenter.md R182: the single-frame path; that InvalidFrameSize is never raised for a legal MTU is the spec's own
derivation "from rules R132 and R180". -/
def Obligations.SingleFramePathFillsOneFrame : Prop :=
  (∀ (xid : CanId) (tid : BitVec 8) (payload : List Byte) (mtu lf : Nat),
    roundUpFrameLength (payload.length + 1) = .ok lf → lf ≤ mtu → ∃ t, makeTailByte true true true tid = .ok t ∧
      singleFrame xid tid payload mtu = .ok
        [⟨xid, lf, payload ++ zeros (lf - 1 - payload.length) ++ [t] ++ zeros (mtu - lf)⟩]) ∧
  (∀ (xid : CanId) (tid : BitVec 8) (payload : List Byte) (mtu lf : Nat),
    roundUpFrameLength (payload.length + 1) = .ok lf → mtu < lf →
      singleFrame xid tid payload mtu = .error .invalidFrameSize) ∧
  (∀ (xid : CanId) (tid : BitVec 8) (payload : List Byte) (mtu : Nat), 64 < payload.length + 1 →
    singleFrame xid tid payload mtu = .error .invalidFrameSize) ∧
  (∀ (xid : CanId) (tid : BitVec 8) (payload : List Byte) (mtu : BitVec 7), legalMtu mtu.toNat = true →
    payload.length ≤ presentationMtu mtu →
    singleFrame xid tid payload mtu.toNat ≠ .error .invalidFrameSize)

/-- 44_fragmenter.md: the multi-frame loop of R183 equals its closed form, the spec's own derivation "from rules R183,
R125 and R132". -/
def Obligations.MultiFrameLoopEqualsItsClosedForm : Prop :=
  (∀ (xid : CanId) (tid : BitVec 8) (payload : List Byte) (mtu : BitVec 7), legalMtu mtu.toNat = true →
    presentationMtu mtu < payload.length →
    multiFrame xid tid payload (presentationMtu mtu) mtu.toNat =
      .ok ((List.range (frameCount payload.length (presentationMtu mtu))).map
        (closedFrame xid tid payload (presentationMtu mtu) mtu.toNat)) ∧
    1 ≤ lastShare payload.length (presentationMtu mtu) ∧
    lastShare payload.length (presentationMtu mtu) ≤ presentationMtu mtu ∧
    crc16 (transferBytes payload (presentationMtu mtu)) = 0) ∧
  (∀ r, r ≤ 63 → quantize (r + 1) - 1 - r ≠ 0 → 8 ≤ r) ∧
  quantize 9 - 1 - 8 = 3 ∧ quantize 10 - 1 - 9 = 2 ∧ quantize 12 - 1 - 11 = 0

/-- 44_fragmenter.md, the spec's own derivation "from rules R182, R183 and R185": the number of frames, and where the CRC
bytes fall. -/
def Obligations.FrameCountFollowsPayloadLength : Prop :=
  (∀ (prio : BitVec 3) (k : TransferKind) (portId : BitVec 16) (remote tid : BitVec 8) (payload : List Byte)
    (loc : BitVec 8) (mtu : BitVec 7) (fs : List OutboundFrame), legalMtu mtu.toNat = true →
    createPacket prio k portId remote tid payload loc mtu = .ok fs →
    (payload.length ≤ presentationMtu mtu → fs.length = 1) ∧
    (presentationMtu mtu < payload.length → fs.length = frameCount payload.length (presentationMtu mtu) ∧
      2 ≤ fs.length ∧ ∀ f, fs.getLast? = some f →
        (lastShare payload.length (presentationMtu mtu) = 1 →
          f.len = 2 ∧ f.body = [(crc16 payload).extractLsb 7 0]) ∧
        (lastShare payload.length (presentationMtu mtu) = 2 →
          f.body = [(crc16 payload).extractLsb 15 8, (crc16 payload).extractLsb 7 0]) ∧
        (2 < lastShare payload.length (presentationMtu mtu) →
          ∃ d, d ≠ [] ∧ f.body = d ++
            [(crc16 (paddedPayload payload (presentationMtu mtu))).extractLsb 15 8,
              (crc16 (paddedPayload payload (presentationMtu mtu))).extractLsb 7 0]))) ∧
  (∀ n, (8 ≤ n → n ≤ 12 → frameCount n 7 = 2) ∧ (13 ≤ n → n ≤ 19 → frameCount n 7 = 3))

/-- 43_tail_byte.md R175: the frame-sequence law of one transfer; that no tail byte raises InvalidState is the spec's own
derivation "the last sentence, from rule R170". -/
def Obligations.TailBytesFollowTheSequenceLaw : Prop :=
  ∀ (prio : BitVec 3) (k : TransferKind) (portId : BitVec 16) (remote tid : BitVec 8) (payload : List Byte)
    (loc : BitVec 8) (mtu : BitVec 7), legalMtu mtu.toNat = true →
    createPacket prio k portId remote tid payload loc mtu ≠ .error .invalidState ∧
    ∀ fs, createPacket prio k portId remote tid payload loc mtu = .ok fs →
      ∀ (j : Nat) (h : j < fs.length), decodeTail (fs[j]).tailByte =
        { startBit := decide (j = 0), endBit := decide (j + 1 = fs.length), toggle := decide (j % 2 = 0),
          transferId := tid.extractLsb 4 0 }

/-- 44_fragmenter.md, the spec's own derivation "from rules R181 to R183": one identifier and one transfer-id, frames in emission order, each of its own rounded length;
the bodies in order are the payload, its padding and, for a multi-frame transfer, the CRC trailer. -/
def Obligations.FramesCarryTheTransferInOrder : Prop :=
  ∀ (prio : BitVec 3) (k : TransferKind) (portId : BitVec 16) (remote tid : BitVec 8) (payload : List Byte)
    (loc : BitVec 8) (mtu : BitVec 7) (fs : List OutboundFrame), legalMtu mtu.toNat = true →
    createPacket prio k portId remote tid payload loc mtu = .ok fs →
    (∀ f ∈ fs, makeCanId prio k portId remote payload loc mtu = .ok f.xid ∧
      (decodeTail f.tailByte).transferId = tid.extractLsb 4 0 ∧ (∃ d, 1 ≤ d ∧ d ≤ 15 ∧ f.len = dlcLen d) ∧
      f.len ≤ mtu.toNat ∧ f.data.length = mtu.toNat ∧ f.data.drop f.len = zeros (mtu.toNat - f.len)) ∧
    ∃ pad, fs.flatMap OutboundFrame.body = payload ++ zeros pad ++
      (if payload.length ≤ presentationMtu mtu then []
        else [(crc16 (payload ++ zeros pad)).extractLsb 15 8, (crc16 (payload ++ zeros pad)).extractLsb 7 0])

/-- 44_fragmenter.md R187: CREATE_PACKET. -/
def Obligations.CreatePacketCommand : Prop :=
  (∀ (tid remote : BitVec 8) (portId : BitVec 16) (prio : BitVec 3) (k : TransferKind) (s : State),
    (legalMtu s.mtu.toNat = true → idAccepted prio k portId remote s.ib s.nodeId s.mtu →
      ∃ xid fs, makeCanId prio k portId remote s.ib s.nodeId s.mtu = .ok xid ∧
        createPacket prio k portId remote tid s.ib s.nodeId s.mtu = .ok fs ∧ fs ≠ [] ∧ (∀ f ∈ fs, f.xid = xid) ∧
        exec (.createPacket tid remote portId prio (kindCode k)) s =
          .next { s with
            status := 0
            res := BitVec.ofNat 64 fs.length ||| (xid.setWidth 64 <<< 32)
            out := fs.map OutRecord.outbound } ∧
        (s.ib = [] → fs.length = 1 ∧ ∀ f ∈ fs, f.len = 1) ∧
        (s.ib.length = presentationMtu s.mtu → fs.length = 1 ∧ ∀ f ∈ fs, f.len = s.mtu.toNat ∧ f.body = s.ib) ∧
        (s.ib.length = presentationMtu s.mtu + 1 → fs.length = 2) ∧
        (∀ f ∈ fs, (decodeTail f.tailByte).transferId.toNat = tid.toNat % 32)) ∧
    (¬idAccepted prio k portId remote s.ib s.nodeId s.mtu →
      exec (.createPacket tid remote portId prio (kindCode k)) s = .next { s with status := 4, res := 0, out := [] }) ∧
    (idAccepted prio k portId remote s.ib s.nodeId s.mtu → s.ib.length ≤ presentationMtu s.mtu →
      s.mtu.toNat < quantize (s.ib.length + 1) →
      exec (.createPacket tid remote portId prio (kindCode k)) s =
        .next { s with status := 2, res := 0, out := [] })) ∧
  EncodedAs 0x40 0xFFFFE000000000FF (fun w => .createPacket (w.extractLsb 15 8) (w.extractLsb 23 16)
    (w.extractLsb 39 24) (w.extractLsb 42 40) (w.extractLsb 44 43)) ∧
  (∀ (w : CommandWord) (s : State) (ib : List Byte), w &&& 0xFFFFE000000000FF = 0x40 → w.extractLsb 44 43 = 3 →
    ib.length ≤ s.cfg.ibufCap → step (s.issue w ib) = .next { s with status := 7, res := 0, out := [] }) ∧
  (∀ (tid remote : BitVec 8) (portId : BitVec 16) (prio : BitVec 3) (s : State), 128 ≤ s.nodeId.toNat →
    presentationMtu s.mtu < s.ib.length →
    exec (.createPacket tid remote portId prio 0) s = .next { s with status := 4, res := 0, out := [] }) ∧
  (∀ s : State, s.nodeId = 10 → s.mtu = 8 → s.ib = [1, 2, 3] → exec (.createPacket 0 0xFF 100 4 0) s =
    .next { s with
      status := 0
      res := 0x1000640A00000001
      out := [.outbound { xid := 0x1000640A, len := 4, data := [1, 2, 3, 0xE0, 0, 0, 0, 0] }] })

/-- 44_fragmenter.md R188: SEND_MESSAGE. -/
def Obligations.SendMessageCommand : Prop :=
  (∀ (subject : BitVec 16) (s : State),
    (legalMtu s.mtu.toNat = true → idAccepted s.cfg.prioNominal .message subject 0xFF s.ib s.nodeId s.mtu →
      ∃ xid fs, makeCanId s.cfg.prioNominal .message subject 0xFF s.ib s.nodeId s.mtu = .ok xid ∧
        createPacket s.cfg.prioNominal .message subject 0xFF s.tid s.ib s.nodeId s.mtu = .ok fs ∧ fs ≠ [] ∧
        (∀ f ∈ fs, f.xid = xid) ∧
        exec (.sendMessage subject) s =
          .next { s with
            tid := BitVec.ofNat 8 ((s.tid.toNat + 1) % tidModulus s.cfg.tidModulus)
            status := 0
            res := BitVec.ofNat 64 fs.length ||| (xid.setWidth 64 <<< 32)
            out := fs.map OutRecord.outbound } ∧
        (128 ≤ s.nodeId.toNat → xid.getLsbD 24 = true)) ∧
    (¬idAccepted s.cfg.prioNominal .message subject 0xFF s.ib s.nodeId s.mtu →
      exec (.sendMessage subject) s = .next { s with status := 4, res := 0, out := [] }) ∧
    (idAccepted s.cfg.prioNominal .message subject 0xFF s.ib s.nodeId s.mtu → s.ib.length ≤ presentationMtu s.mtu →
      s.mtu.toNat < quantize (s.ib.length + 1) →
      exec (.sendMessage subject) s = .next { s with status := 2, res := 0, out := [] }) ∧
    (8191 < subject.toNat ∨ (128 ≤ s.nodeId.toNat ∧ presentationMtu s.mtu < s.ib.length) →
      exec (.sendMessage subject) s = .next { s with status := 4, res := 0, out := [] })) ∧
  EncodedAs 0x41 0xFFFFFF0000FFFFFF (fun w => .sendMessage (w.extractLsb 39 24)) ∧
  (∀ (subject : BitVec 16) (s t : State), s.tid.toNat + 1 = tidModulus s.cfg.tidModulus →
    exec (.sendMessage subject) s = .next t → t.status = 0 → t.tid = 0) ∧
  (∀ s : State, s.nodeId = 10 → s.mtu = 8 → s.tid = 0 → s.cfg.prioNominal = 4 → s.ib = [1, 2, 3] →
    exec (.sendMessage 100) s =
      .next { s with
        tid := 1
        status := 0
        res := 0x1000640A00000001
        out := [.outbound { xid := 0x1000640A, len := 4, data := [1, 2, 3, 0xE0, 0, 0, 0, 0] }] })

/-- 44_fragmenter.md R189, R190: SEND_REQUEST and SEND_RESPONSE. -/
def Obligations.SendServiceCommands : Prop :=
  (∀ (k : TransferKind) (dst : BitVec 8) (service : BitVec 16) (i : Instr) (s : State),
    (k = .request ∧ i = .sendRequest dst service) ∨ (k = .response ∧ i = .sendResponse dst service) →
    (legalMtu s.mtu.toNat = true → dst.toNat ≤ 127 → service.toNat ≤ 511 → s.nodeId.toNat ≤ 127 →
      ∃ xid fs, makeCanId s.cfg.prioNominal k service dst s.ib s.nodeId s.mtu = .ok xid ∧
        createPacket s.cfg.prioNominal k service dst s.tid s.ib s.nodeId s.mtu = .ok fs ∧ fs ≠ [] ∧
        (∀ f ∈ fs, f.xid = xid) ∧
        exec i s =
          .next { s with
            tid := BitVec.ofNat 8 ((s.tid.toNat + 1) % tidModulus s.cfg.tidModulus)
            status := 0
            res := BitVec.ofNat 64 fs.length ||| (xid.setWidth 64 <<< 32)
            out := fs.map OutRecord.outbound } ∧
        xid.getLsbD 24 = decide (k = .request)) ∧
    (128 ≤ dst.toNat ∨ 511 < service.toNat ∨ 128 ≤ s.nodeId.toNat →
      exec i s = .next { s with status := 4, res := 0, out := [] }) ∧
    (dst.toNat ≤ 127 → service.toNat ≤ 511 → s.nodeId.toNat ≤ 127 → s.ib.length ≤ presentationMtu s.mtu →
      s.mtu.toNat < quantize (s.ib.length + 1) → exec i s = .next { s with status := 2, res := 0, out := [] })) ∧
  EncodedAs 0x42 0xFFFFFF000000FFFF (fun w => .sendRequest (w.extractLsb 23 16) (w.extractLsb 39 24)) ∧
  EncodedAs 0x43 0xFFFFFF000000FFFF (fun w => .sendResponse (w.extractLsb 23 16) (w.extractLsb 39 24)) ∧
  (∀ (prio : BitVec 3) (service : BitVec 16) (dst loc : BitVec 8) (payload : List Byte) (mtu : BitVec 7) (a b : CanId),
    makeCanId prio .request service dst payload loc mtu = .ok a →
    makeCanId prio .response service dst payload loc mtu = .ok b → a = b ||| (1 <<< 24) ∧ b.getLsbD 24 = false) ∧
  (∀ s : State, s.nodeId = 42 → s.mtu = 64 → s.tid = 0 → s.cfg.prioNominal = 4 →
    s.ib = (List.range 70).map (fun j => BitVec.ofNat 8 (j + 1)) → ∃ t, exec (.sendRequest 7 430) s = .next t ∧
      t.res = 0x136B83AA00000002 ∧ t.out.length = 2 ∧ t.tid = 1) ∧
  (∀ s : State, s.nodeId = 7 → s.mtu = 8 → s.tid = 0 → s.cfg.prioNominal = 4 → s.ib = [] →
    exec (.sendResponse 42 430) s =
      .next { s with
        tid := 1
        status := 0
        res := 0x126B950700000001
        out := [.outbound { xid := 0x126B9507, len := 1, data := [0xE0, 0, 0, 0, 0, 0, 0, 0] }] })

/-- 44_fragmenter.md R191: SEND_* advance TID on success only; a run's frames are the same for both values of TID_MODULUS,
the spec's own derivation "the last sentence, from rule R170": states that agree but for the counter's multiples of 32 step to such states, with equal STATUS and OUT, and
equal RES but for READ_STATE. -/
def Obligations.CounterModulusShowsOnlyInReadState : Prop :=
  (∀ (i : Instr) (s t : State), isSend i = true → exec i s = .next t →
    (t.status = 0 → t.tid.toNat = (s.tid.toNat + 1) % tidModulus s.cfg.tidModulus) ∧
    (t.status ≠ 0 → t.tid = s.tid)) ∧
  (∀ s₁ s₂ t₁ : State, SameButCounter s₁ s₂ → step s₁ = .next t₁ → ∃ t₂, step s₂ = .next t₂ ∧ SameButCounter t₁ t₂ ∧
    ∀ w ib rest, s₁.port = .command w ib :: rest → decode w ≠ .command .readState → t₁.res = t₂.res)

/-! ## Frame parser -/

/-- 45_rx_parser.md R222, R223; 20_memory.md R53, R54: the fields of one record of MTU + 8 bytes
inside the input, and which records fail. -/
def Obligations.ParseRecordReadsTheRecordFields : Prop :=
  ∀ (msb : SubjectRxMsb) (ib : List Byte) (mtu b : Nat), b + (mtu + 8) ≤ ib.length →
    ((dlcLen ((byteAt ib (b + 6)).toNat % 16) = 0 ∨ mtu < dlcLen ((byteAt ib (b + 6)).toNat % 16)) →
      parseRecord msb ib mtu b = .error .invalidFrameLength) ∧
    (1 ≤ dlcLen ((byteAt ib (b + 6)).toNat % 16) → dlcLen ((byteAt ib (b + 6)).toNat % 16) ≤ mtu →
      ∃ r, parseRecord msb ib mtu b = .ok r ∧
        r.xid.toNat = ((byteAt ib b).toNat + (byteAt ib (b + 1)).toNat * 2 ^ 8 + (byteAt ib (b + 2)).toNat * 2 ^ 16
          + (byteAt ib (b + 3)).toNat * 2 ^ 24) % 2 ^ 29 ∧
        r.dlc.toNat = (byteAt ib (b + 6)).toNat % 16 ∧
        unpackId msb r.xid = ⟨r.priority, r.kind, r.portId, r.sourceNodeId, r.destinationNodeId⟩ ∧
        decodeTail (byteAt ib (b + 8 + dlcLen r.dlc.toNat - 1)) = ⟨r.startBit, r.endBit, r.toggle, r.transferId⟩ ∧
        r.frameType = frameTypeOf r.startBit r.endBit ∧ r.payloadLen.toNat = dlcLen r.dlc.toNat - 1 ∧
        r.payload = slice ib (b + 8) (b + 8 + dlcLen r.dlc.toNat - 1) ++ zeros (mtu - (dlcLen r.dlc.toNat - 1)))

/-- 45_rx_parser.md R224: PARSE_BUFFER. -/
def Obligations.ParseBufferCommand : Prop :=
  (∀ s : State, s.ib.length % (s.mtu.toNat + 8) = 0 →
    (∀ j, j < s.ib.length / (s.mtu.toNat + 8) →
      1 ≤ dlcLen ((byteAt s.ib (j * (s.mtu.toNat + 8) + 6)).toNat % 16) ∧
        dlcLen ((byteAt s.ib (j * (s.mtu.toNat + 8) + 6)).toNat % 16) ≤ s.mtu.toNat) →
    ∃ recs : List InboundFrame, recs.length = s.ib.length / (s.mtu.toNat + 8) ∧
      (∀ (j : Nat) (h : j < recs.length),
        parseRecord s.cfg.subjectRxMsb s.ib s.mtu.toNat (j * (s.mtu.toNat + 8)) = .ok recs[j]) ∧
      exec .parseBuffer s =
        .next { s with status := 0, res := BitVec.ofNat 64 recs.length, out := recs.map OutRecord.inbound }) ∧
  (∀ s : State, s.ib.length % (s.mtu.toNat + 8) ≠ 0 →
    exec .parseBuffer s = .next { s with status := 3, res := 0, out := [] }) ∧
  (∀ (s : State) (j : Nat), j < s.ib.length / (s.mtu.toNat + 8) →
    (dlcLen ((byteAt s.ib (j * (s.mtu.toNat + 8) + 6)).toNat % 16) = 0 ∨
      s.mtu.toNat < dlcLen ((byteAt s.ib (j * (s.mtu.toNat + 8) + 6)).toNat % 16)) →
    exec .parseBuffer s = .next { s with status := 3, res := 0, out := [] }) ∧
  EncodedAs 0x50 0xFFFFFFFFFFFFFFFF (fun _ => .parseBuffer) ∧
  (∀ (msb : SubjectRxMsb) (ib ib' : List Byte) (mtu b : Nat), ib.length = ib'.length →
    (∀ j, j < b + 3 ∨ b + 8 ≤ j → byteAt ib j = byteAt ib' j) →
    (byteAt ib (b + 3)).extractLsb 4 0 = (byteAt ib' (b + 3)).extractLsb 4 0 →
    (byteAt ib (b + 6)).extractLsb 3 0 = (byteAt ib' (b + 6)).extractLsb 3 0 →
    parseRecord msb ib mtu b = parseRecord msb ib' mtu b) ∧
  (∀ s : State, s.ib = [] → exec .parseBuffer s = .next { s with status := 0, res := 0, out := [] }) ∧
  (∀ s : State, s.mtu = 8 → s.ib = [0x0A, 0x64, 0x00, 0x10, 0, 0, 4, 0, 1, 2, 3, 0xE0, 0, 0, 0, 0] →
    exec .parseBuffer s =
      .next { s with
        status := 0
        res := 1
        out := [.inbound
          { xid := 0x1000640A, priority := 4, kind := .message, portId := 100, sourceNodeId := 10
            destinationNodeId := 0xFF, transferId := 0, startBit := true, endBit := true, toggle := true
            frameType := .single, dlc := 4, payloadLen := 3, payload := [1, 2, 3, 0, 0, 0, 0, 0] }] })

/-- 45_rx_parser.md R225: records are independent and keep their order; each yields exactly one frame. -/
def Obligations.RecordsParseIndependently : Prop :=
  ∀ (msb : SubjectRxMsb) (mtu : Nat) (a b : List Byte), a.length % (mtu + 8) = 0 →
    (∀ ra rb, parseBuffer msb a mtu = .ok ra → parseBuffer msb b mtu = .ok rb →
      parseBuffer msb (a ++ b) mtu = .ok (ra ++ rb)) ∧
    (parseBuffer msb a mtu = .error .invalidFrameLength ∨ parseBuffer msb b mtu = .error .invalidFrameLength →
      parseBuffer msb (a ++ b) mtu = .error .invalidFrameLength) ∧
    (∀ ra, parseBuffer msb a mtu = .ok ra → ra.length = a.length / (mtu + 8))

/-- 45_rx_parser.md, the spec's own derivation "from rules R222, R150, R175 and 41_dlc.md rule R136": the frames of a
transfer, written as raw records, parse back to the transfer's fields. -/
def Obligations.CreatedFramesParseBack : Prop :=
  ∀ (msb : SubjectRxMsb) (prio : BitVec 3) (k : TransferKind) (portId : BitVec 16) (remote tid : BitVec 8)
    (payload : List Byte) (loc : BitVec 8) (mtu : BitVec 7) (fs : List OutboundFrame), legalMtu mtu.toNat = true →
    createPacket prio k portId remote tid payload loc mtu = .ok fs →
    ∃ rs, parseBuffer msb (fs.flatMap rawRecord) mtu.toNat = .ok rs ∧ rs.length = fs.length ∧
      ∀ (j : Nat) (h : j < fs.length) (h' : j < rs.length),
        rs[j] =
          { xid := fs[j].xid, priority := prio, kind := k, portId := portId,
            sourceNodeId := if loc.toNat ≤ 127 then loc else 0xFF,
            destinationNodeId := if k = .message then 0xFF else remote,
            transferId := tid.extractLsb 4 0,
            startBit := decide (j = 0), endBit := decide (j + 1 = fs.length), toggle := decide (j % 2 = 0),
            frameType := frameTypeOf (decide (j = 0)) (decide (j + 1 = fs.length)),
            dlc := BitVec.ofNat 4 (lenDlc fs[j].len), payloadLen := BitVec.ofNat 7 (fs[j].len - 1),
            payload := fs[j].body ++ zeros (mtu.toNat - (fs[j].len - 1)) }

/-! ## Control -/

/-- 46_control.md R240: INIT. -/
def Obligations.InitCommand : Prop :=
  (∀ (node : BitVec 8) (mtu : BitVec 16) (s : State), mtu.toNat ∈ [8, 12, 16, 20, 24, 32, 48, 64] →
    ∃ m : BitVec 7, m.toNat = mtu.toNat ∧ exec (.init node mtu) s =
      .next { s with nodeId := node, mtu := m, tid := 0, status := 0, res := 0, out := [] }) ∧
  (∀ (node : BitVec 8) (mtu : BitVec 16) (s : State), mtu.toNat ∉ [8, 12, 16, 20, 24, 32, 48, 64] →
    exec (.init node mtu) s = .next { s with status := 2, res := 0, out := [] }) ∧
  EncodedAs 0x70 0xFFFFFF0000FF00FF (fun w => .init (w.extractLsb 15 8) (w.extractLsb 39 24)) ∧
  (∀ (node : BitVec 8) (s : State), exec (.init node 10) s = .next { s with status := 2, res := 0, out := [] } ∧
    exec (.init node 4) s = .next { s with status := 2, res := 0, out := [] }) ∧
  (∀ s : State, exec (.init 10 8) s =
    .next { s with nodeId := 10, mtu := 8, tid := 0, status := 0, res := 0, out := [] })

/-- 46_control.md R241: SET_NODE_ID. -/
def Obligations.SetNodeIdCommand : Prop :=
  (∀ (node : BitVec 8) (s : State), exec (.setNodeId node) s =
    .next { s with nodeId := node, status := 0, res := 0, out := [] }) ∧
  EncodedAs 0x71 0xFFFFFFFFFFFF00FF (fun w => .setNodeId (w.extractLsb 15 8)) ∧
  (∀ (node : BitVec 8) (s t : State) (dst : BitVec 8) (port : BitVec 16), 128 ≤ node.toNat →
    exec (.setNodeId node) s = .next t →
    exec (.sendRequest dst port) t = .next { t with status := 4, res := 0, out := [] } ∧
    exec (.sendResponse dst port) t = .next { t with status := 4, res := 0, out := [] } ∧
    ∀ u, exec (.sendMessage port) t = .next u → u.status = 0 → u.res.getLsbD 56 = true) ∧
  (∀ (node : BitVec 8) (s t : State), exec (.setNodeId node) s = .next t →
    ∃ u, exec .readState t = .next u ∧ u.res.extractLsb 7 0 = node) ∧
  (∀ s : State, exec (.setNodeId 5) s = .next { s with nodeId := 5, status := 0, res := 0, out := [] })

/-- 46_control.md R242: READ_STATE. -/
def Obligations.ReadStateCommand : Prop :=
  (∀ s : State, ∃ r : BitVec 64, r.toNat = s.nodeId.toNat + s.mtu.toNat * 2 ^ 8 + s.tid.toNat * 2 ^ 16 ∧
    exec .readState s = .next { s with status := 0, res := r, out := [] }) ∧
  EncodedAs 0x72 0xFFFFFFFFFFFFFFFF (fun _ => .readState) ∧
  exec .readState State.reset = .next { State.reset with res := 0x000008FF } ∧
  (∃ s : State, s.cfg.tidModulus = .wrap256 ∧ 31 < s.tid.toNat ∧ s.tid.toNat < 256 ∧
    ∃ t, exec .readState s = .next t ∧ 31 < (t.res.extractLsb 23 16).toNat) ∧
  (∀ s : State, s.nodeId = 10 → s.mtu = 8 → s.tid = 2 →
    exec .readState s = .next { s with status := 0, res := 0x0002080A, out := [] })
end

