-- ==== Sys2Proof/Laws/Encoding.lean ====
section
/-! SUPPORT. The small lemmas of the decoder and the encoder: each field of an assembled word, masks field by field, and
what a word that decodes looks like. -/

namespace Sys2Proof

open Machine

/-! ## Fields of an assembled word -/

section Fields
variable (l : BitVec 16) (f : BitVec 3) (k : BitVec 2) (pr : BitVec 3) (p : BitVec 16) (b a o : BitVec 8)

@[simp] theorem fieldOpc_assembleR : fieldOpc (assembleR l f k pr p b a o) = o := by
  unfold fieldOpc assembleR
  rw [BitVec.extractLsb'_append_eq_of_add_le (by decide), BitVec.extractLsb'_eq_self]

@[simp] theorem fieldA_assembleR : fieldA (assembleR l f k pr p b a o) = a := by
  unfold fieldA assembleR
  rw [BitVec.extractLsb'_append_eq_of_le (by decide), BitVec.extractLsb'_append_eq_of_add_le (by decide),
    BitVec.extractLsb'_eq_self]

@[simp] theorem fieldB_assembleR : fieldB (assembleR l f k pr p b a o) = b := by
  unfold fieldB assembleR
  rw [BitVec.extractLsb'_append_eq_of_le (by decide), BitVec.extractLsb'_append_eq_of_le (by decide),
    BitVec.extractLsb'_append_eq_of_add_le (by decide), BitVec.extractLsb'_eq_self]

@[simp] theorem fieldP_assembleR : fieldP (assembleR l f k pr p b a o) = p := by
  unfold fieldP assembleR
  rw [BitVec.extractLsb'_append_eq_of_le (by decide), BitVec.extractLsb'_append_eq_of_le (by decide),
    BitVec.extractLsb'_append_eq_of_le (by decide), BitVec.extractLsb'_append_eq_of_add_le (by decide),
    BitVec.extractLsb'_eq_self]

@[simp] theorem fieldPri_assembleR : fieldPri (assembleR l f k pr p b a o) = pr := by
  unfold fieldPri assembleR
  rw [BitVec.extractLsb'_append_eq_of_le (by decide), BitVec.extractLsb'_append_eq_of_le (by decide),
    BitVec.extractLsb'_append_eq_of_le (by decide), BitVec.extractLsb'_append_eq_of_le (by decide),
    BitVec.extractLsb'_append_eq_of_add_le (by decide), BitVec.extractLsb'_eq_self]

@[simp] theorem fieldKind_assembleR : fieldKind (assembleR l f k pr p b a o) = k := by
  unfold fieldKind assembleR
  rw [BitVec.extractLsb'_append_eq_of_le (by decide), BitVec.extractLsb'_append_eq_of_le (by decide),
    BitVec.extractLsb'_append_eq_of_le (by decide), BitVec.extractLsb'_append_eq_of_le (by decide),
    BitVec.extractLsb'_append_eq_of_le (by decide), BitVec.extractLsb'_append_eq_of_add_le (by decide),
    BitVec.extractLsb'_eq_self]

@[simp] theorem fieldL_assembleR : fieldL (assembleR l f k pr p b a o) = l := by
  unfold fieldL assembleR
  rw [BitVec.extractLsb'_append_eq_of_le (by decide), BitVec.extractLsb'_append_eq_of_le (by decide),
    BitVec.extractLsb'_append_eq_of_le (by decide), BitVec.extractLsb'_append_eq_of_le (by decide),
    BitVec.extractLsb'_append_eq_of_le (by decide), BitVec.extractLsb'_append_eq_of_le (by decide),
    BitVec.extractLsb'_append_eq_of_le (by decide), BitVec.extractLsb'_eq_self]

/-- Masking an assembled word masks its fields. -/
theorem assembleR_and (l' : BitVec 16) (f' : BitVec 3) (k' : BitVec 2) (pr' : BitVec 3) (p' : BitVec 16)
    (b' a' o' : BitVec 8) :
    assembleR l f k pr p b a o &&& assembleR l' f' k' pr' p' b' a' o' =
      assembleR (l &&& l') (f &&& f') (k &&& k') (pr &&& pr') (p &&& p') (b &&& b') (a &&& a') (o &&& o') := by
  refine (BitVec.and_append (x₁ := l ++ f ++ k ++ pr ++ p ++ b ++ a) (x₂ := l' ++ f' ++ k' ++ pr' ++ p' ++ b' ++ a')
    (y₁ := o) (y₂ := o')).trans ?_
  simp only [assembleR, BitVec.and_append]

end Fields

section FlagBits
variable (l : BitVec 16) (f2 f1 f0 : Bool) (k : BitVec 2) (pr : BitVec 3) (p : BitVec 16) (b a o : BitVec 8)

/-- A flag bit of an assembled word is the flag of its field `F`. -/
theorem getLsbD_assembleR_flags (f : BitVec 3) (j : Nat) (hj : j < 3) :
    (assembleR l f k pr p b a o).getLsbD (45 + j) = f.getLsbD j := by
  simp only [assembleR, BitVec.getLsbD_append]
  have h0 : ¬45 + j < 8 := by omega
  have h1 : ¬45 + j - 8 < 8 := by omega
  have h2 : ¬45 + j - 8 - 8 < 8 := by omega
  have h3 : ¬45 + j - 8 - 8 - 8 < 16 := by omega
  have h4 : ¬45 + j - 8 - 8 - 8 - 16 < 3 := by omega
  have h5 : ¬45 + j - 8 - 8 - 8 - 16 - 3 < 2 := by omega
  have h6 : 45 + j - 8 - 8 - 8 - 16 - 3 - 2 < 3 := by omega
  have h7 : 45 + j - 8 - 8 - 8 - 16 - 3 - 2 = j := by omega
  simp only [h0, h1, h2, h3, h4, h5, h6, if_true, if_false]
  rw [h7]

@[simp] theorem fieldF0_assembleR : fieldF0 (assembleR l (flagField f2 f1 f0) k pr p b a o) = f0 :=
  (getLsbD_assembleR_flags l k pr p b a o (flagField f2 f1 f0) 0 (by decide)).trans (by
    cases f2 <;> cases f1 <;> cases f0 <;> rfl)

@[simp] theorem fieldF1_assembleR : fieldF1 (assembleR l (flagField f2 f1 f0) k pr p b a o) = f1 :=
  (getLsbD_assembleR_flags l k pr p b a o (flagField f2 f1 f0) 1 (by decide)).trans (by
    cases f2 <;> cases f1 <;> cases f0 <;> rfl)

@[simp] theorem fieldF2_assembleR : fieldF2 (assembleR l (flagField f2 f1 f0) k pr p b a o) = f2 :=
  (getLsbD_assembleR_flags l k pr p b a o (flagField f2 f1 f0) 2 (by decide)).trans (by
    cases f2 <;> cases f1 <;> cases f0 <;> rfl)

end FlagBits

@[simp] theorem fieldOpc_assembleX (x : BitVec 32) (o : BitVec 8) : fieldOpc (assembleX x o) = o := by
  unfold fieldOpc assembleX
  rw [BitVec.extractLsb'_append_eq_of_add_le (by decide), BitVec.extractLsb'_eq_self]

@[simp] theorem fieldX_assembleX (x : BitVec 32) (o : BitVec 8) : fieldX (assembleX x o) = x := by
  unfold fieldX assembleX
  rw [BitVec.extractLsb'_append_eq_of_le (by decide), BitVec.extractLsb'_append_eq_of_add_le (by decide),
    BitVec.extractLsb'_eq_self]

/-- Masking a format X word masks its fields. -/
theorem assembleX_and (x x' : BitVec 32) (o o' : BitVec 8) :
    assembleX x o &&& assembleX x' o' = assembleX (x &&& x') (o &&& o') := by
  refine (BitVec.and_append (x₁ := 0#24 ++ x) (x₂ := 0#24 ++ x') (y₁ := o) (y₂ := o')).trans ?_
  simp only [assembleX, BitVec.and_append, BitVec.and_self]

/-- The opcode of a word that a row's mask covers is the opcode of the row's pattern. -/
theorem fieldOpc_of_masked {w mask pattern : CommandWord} (hm : fieldOpc mask = 0xFF) (h : w &&& mask = pattern) :
    fieldOpc w = fieldOpc pattern := by
  have : fieldOpc (w &&& mask) = fieldOpc w &&& fieldOpc mask := by
    unfold fieldOpc; rw [BitVec.extractLsb'_and]
  rw [← h, this, hm]
  exact (BitVec.and_allOnes (x := fieldOpc w)).symm

/-! ## What decoding can do -/

/-- A word that decodes: its opcode has a row, its reserved bits are clear, and the row's command is well formed. -/
theorem decode_eq_command_iff {w : CommandWord} {i : Instr} :
    decode w = .command i ↔ ∃ row, opcodeRow (fieldOpc w) = some row ∧ w &&& row.mask = row.pattern ∧
      row.build w = i ∧ i.wellFormed = true := by
  unfold decode
  cases hr : opcodeRow (fieldOpc w) with
  | none => simp
  | some row =>
    by_cases hm : w &&& row.mask = row.pattern
    · by_cases hw : (row.build w).wellFormed = true
      · simp only [hm, hw, if_true, Decoded.command.injEq, Option.some.injEq]
        constructor
        · rintro rfl; exact ⟨row, rfl, hm, rfl, hw⟩
        · rintro ⟨_, rfl, _, h, _⟩; exact h
      · simp only [hm, hw, if_true]
        constructor
        · intro h; cases h
        · rintro ⟨_, h, _, rfl, hw'⟩; cases h; exact absurd hw' hw
    · simp only [hm, if_false]
      constructor
      · intro h; cases h
      · rintro ⟨_, h, hm', _⟩; cases h; exact absurd hm' hm

/-- Decoding a word whose opcode has the row `row`. -/
theorem decode_of_row {w : CommandWord} {row : OpcodeRow} (h : opcodeRow (fieldOpc w) = some row) :
    decode w = if w &&& row.mask = row.pattern then
      (if (row.build w).wellFormed then .command (row.build w) else .rejected .reservedKind)
      else .rejected .reservedBits := by
  unfold decode; rw [h]

/-- A row's opcode column, its mask and its pattern are those of the table the statements use. -/
theorem opcodeRow_mem {o : BitVec 8} {row : OpcodeRow} (h : opcodeRow o = some row) :
    row.opc = o ∧ (o, row.mask) ∈ opcodeMasks ∧ row.pattern = o.setWidth 64 := by
  unfold opcodeRow at h
  split at h <;> first | (cases h; decide) | cases h

end Sys2Proof
end

