-- ==== Sys2Proof/Laws/State.lean ====
section
/-! SUPPORT. One lemma per field per update of State: what each shared operation leaves in each register. -/

namespace Sys2Proof.Machine

/-! ### `State.succeed` -/

@[simp] theorem State.succeed_nodeId (s : State) (r : BitVec 64) (o : List OutRecord) : (s.succeed r o).nodeId = s.nodeId := rfl
@[simp] theorem State.succeed_mtu (s : State) (r : BitVec 64) (o : List OutRecord) : (s.succeed r o).mtu = s.mtu := rfl
@[simp] theorem State.succeed_tid (s : State) (r : BitVec 64) (o : List OutRecord) : (s.succeed r o).tid = s.tid := rfl
@[simp] theorem State.succeed_status (s : State) (r : BitVec 64) (o : List OutRecord) : (s.succeed r o).status = 0 := rfl
@[simp] theorem State.succeed_res (s : State) (r : BitVec 64) (o : List OutRecord) : (s.succeed r o).res = r := rfl
@[simp] theorem State.succeed_out (s : State) (r : BitVec 64) (o : List OutRecord) : (s.succeed r o).out = o := rfl
@[simp] theorem State.succeed_port (s : State) (r : BitVec 64) (o : List OutRecord) : (s.succeed r o).port = s.port := rfl
@[simp] theorem State.succeed_cfg (s : State) (r : BitVec 64) (o : List OutRecord) : (s.succeed r o).cfg = s.cfg := rfl
@[simp] theorem State.succeed_ib (s : State) (r : BitVec 64) (o : List OutRecord) : (s.succeed r o).ib = s.ib := rfl

/-! ### `State.fail` -/

@[simp] theorem State.fail_nodeId (s : State) (e : ErrorKind) : (s.fail e).nodeId = s.nodeId := rfl
@[simp] theorem State.fail_mtu (s : State) (e : ErrorKind) : (s.fail e).mtu = s.mtu := rfl
@[simp] theorem State.fail_tid (s : State) (e : ErrorKind) : (s.fail e).tid = s.tid := rfl
@[simp] theorem State.fail_status (s : State) (e : ErrorKind) : (s.fail e).status = errorCode e := rfl
@[simp] theorem State.fail_res (s : State) (e : ErrorKind) : (s.fail e).res = 0 := rfl
@[simp] theorem State.fail_out (s : State) (e : ErrorKind) : (s.fail e).out = [] := rfl
@[simp] theorem State.fail_port (s : State) (e : ErrorKind) : (s.fail e).port = s.port := rfl
@[simp] theorem State.fail_cfg (s : State) (e : ErrorKind) : (s.fail e).cfg = s.cfg := rfl
@[simp] theorem State.fail_ib (s : State) (e : ErrorKind) : (s.fail e).ib = s.ib := rfl

/-! ### `State.retire` -/

@[simp] theorem State.retire_nodeId (s : State) : (s.retire).nodeId = s.nodeId := rfl
@[simp] theorem State.retire_mtu (s : State) : (s.retire).mtu = s.mtu := rfl
@[simp] theorem State.retire_tid (s : State) : (s.retire).tid = s.tid := rfl
@[simp] theorem State.retire_status (s : State) : (s.retire).status = s.status := rfl
@[simp] theorem State.retire_res (s : State) : (s.retire).res = s.res := rfl
@[simp] theorem State.retire_out (s : State) : (s.retire).out = s.out := rfl
@[simp] theorem State.retire_port (s : State) : (s.retire).port = s.port.tail := rfl
@[simp] theorem State.retire_cfg (s : State) : (s.retire).cfg = s.cfg := rfl

/-! ### `State.takeReset` -/

@[simp] theorem State.takeReset_nodeId (s : State) : (s.takeReset).nodeId = 0xFF := rfl
@[simp] theorem State.takeReset_mtu (s : State) : (s.takeReset).mtu = 8 := rfl
@[simp] theorem State.takeReset_tid (s : State) : (s.takeReset).tid = 0 := rfl
@[simp] theorem State.takeReset_status (s : State) : (s.takeReset).status = 0 := rfl
@[simp] theorem State.takeReset_res (s : State) : (s.takeReset).res = 0 := rfl
@[simp] theorem State.takeReset_out (s : State) : (s.takeReset).out = [] := rfl
@[simp] theorem State.takeReset_port (s : State) : (s.takeReset).port = s.port.tail := rfl
@[simp] theorem State.takeReset_cfg (s : State) : (s.takeReset).cfg = s.cfg := rfl

/-! ### `State.issue` -/

@[simp] theorem State.issue_nodeId (s : State) (w : CommandWord) (i : List Byte) : (s.issue w i).nodeId = s.nodeId := rfl
@[simp] theorem State.issue_mtu (s : State) (w : CommandWord) (i : List Byte) : (s.issue w i).mtu = s.mtu := rfl
@[simp] theorem State.issue_tid (s : State) (w : CommandWord) (i : List Byte) : (s.issue w i).tid = s.tid := rfl
@[simp] theorem State.issue_status (s : State) (w : CommandWord) (i : List Byte) : (s.issue w i).status = s.status := rfl
@[simp] theorem State.issue_res (s : State) (w : CommandWord) (i : List Byte) : (s.issue w i).res = s.res := rfl
@[simp] theorem State.issue_out (s : State) (w : CommandWord) (i : List Byte) : (s.issue w i).out = s.out := rfl
@[simp] theorem State.issue_port (s : State) (w : CommandWord) (i : List Byte) : (s.issue w i).port = .command w i :: s.port := rfl
@[simp] theorem State.issue_cfg (s : State) (w : CommandWord) (i : List Byte) : (s.issue w i).cfg = s.cfg := rfl
@[simp] theorem State.issue_ib (s : State) (w : CommandWord) (i : List Byte) : (s.issue w i).ib = i := rfl

/-! ### `State.withFetchWord` -/

@[simp] theorem State.withFetchWord_nodeId (s : State) (n : Nat) (w : Nat) : (s.withFetchWord n w).nodeId = s.nodeId := rfl
@[simp] theorem State.withFetchWord_mtu (s : State) (n : Nat) (w : Nat) : (s.withFetchWord n w).mtu = s.mtu := rfl
@[simp] theorem State.withFetchWord_tid (s : State) (n : Nat) (w : Nat) : (s.withFetchWord n w).tid = s.tid := rfl
@[simp] theorem State.withFetchWord_status (s : State) (n : Nat) (w : Nat) : (s.withFetchWord n w).status = s.status := rfl
@[simp] theorem State.withFetchWord_res (s : State) (n : Nat) (w : Nat) : (s.withFetchWord n w).res = s.res := rfl
@[simp] theorem State.withFetchWord_out (s : State) (n : Nat) (w : Nat) : (s.withFetchWord n w).out = s.out := rfl
@[simp] theorem State.withFetchWord_port (s : State) (n : Nat) (w : Nat) : (s.withFetchWord n w).port = fetchMove n w :: s.port := rfl
@[simp] theorem State.withFetchWord_cfg (s : State) (n : Nat) (w : Nat) : (s.withFetchWord n w).cfg = s.cfg := rfl
@[simp] theorem State.withFetchWord_ib (s : State) (n : Nat) (w : Nat) : (s.withFetchWord n w).ib = [] := rfl

/-! ### The input sequence depends on the host's moves alone -/

theorem State.ib_congr {s t : State} (h : s.port = t.port) : s.ib = t.ib := by
  simp only [State.ib, h]

theorem State.issue_retire (s : State) (w : CommandWord) (i : List Byte) : (s.issue w i).retire = s := rfl

end Sys2Proof.Machine
end

