-- ==== Sys2Proof/Laws/Ops.lean ====
section
/-! SUPPORT. For each shared operation, what it can do, said once: later proofs cite these lemmas and do not unfold the
operation. -/

namespace Sys2Proof.Machine

/-! ## Codes -/

@[simp] theorem kindOfCode_kindCode (k : TransferKind) : kindOfCode (kindCode k) = some k := by
  cases k <;> rfl

theorem kindOfCode_eq_none_iff (kind : BitVec 2) : kindOfCode kind = none ↔ kind = 3 := by
  revert kind; decide

theorem kindOfCode_eq_some_iff (kind : BitVec 2) (k : TransferKind) : kindOfCode kind = some k ↔ kind = kindCode k := by
  revert kind k; rintro kind (_ | _ | _) <;> revert kind <;> decide

/-- An error code is one of 1 to 7 (60_exceptions.md R260). -/
theorem errorCode_range (e : ErrorKind) : 1 ≤ (errorCode e).toNat ∧ (errorCode e).toNat ≤ 7 := by
  cases e <;> decide

theorem errorCode_ne_ok (e : ErrorKind) : errorCode e ≠ statusOk := by
  cases e <;> decide

/-! ## Node ids and operand ranges -/

theorem validNode_iff (v : BitVec 8) : validNode v = true ↔ v.toNat ≤ 127 :=
  decide_eq_true_iff

theorem validSubject_iff (p : BitVec 16) : validSubject p = true ↔ p.toNat ≤ 8191 :=
  decide_eq_true_iff

theorem validService_iff (p : BitVec 16) : validService p = true ↔ p.toNat ≤ 511 :=
  decide_eq_true_iff

theorem legalMtu_iff (n : Nat) :
    legalMtu n = true ↔ n = 8 ∨ n = 12 ∨ n = 16 ∨ n = 20 ∨ n = 24 ∨ n = 32 ∨ n = 48 ∨ n = 64 := by
  simp [legalMtu, legalMtus]

/-! ## How commands end -/

/-- `finish` succeeds with the value, or fails with the error. -/
theorem State.finish_cases (s : State) (r : Except ErrorKind (BitVec 64)) :
    (∃ v, r = .ok v ∧ s.finish r = s.succeed v []) ∨ (∃ e, r = .error e ∧ s.finish r = s.fail e) := by
  cases r with
  | ok v => exact .inl ⟨v, rfl, rfl⟩
  | error e => exact .inr ⟨e, rfl, rfl⟩

@[simp] theorem State.finish_ok (s : State) (v : BitVec 64) : s.finish (.ok v) = s.succeed v [] := rfl
@[simp] theorem State.finish_error (s : State) (e : ErrorKind) : s.finish (.error e) = s.fail e := rfl

@[simp] theorem State.finish_nodeId (s : State) (r) : (s.finish r).nodeId = s.nodeId := by cases r <;> rfl
@[simp] theorem State.finish_mtu (s : State) (r) : (s.finish r).mtu = s.mtu := by cases r <;> rfl
@[simp] theorem State.finish_tid (s : State) (r) : (s.finish r).tid = s.tid := by cases r <;> rfl
@[simp] theorem State.finish_port (s : State) (r) : (s.finish r).port = s.port := by cases r <;> rfl
@[simp] theorem State.finish_cfg (s : State) (r) : (s.finish r).cfg = s.cfg := by cases r <;> rfl

/-- `finishFrames` succeeds with the frames, or fails with the error. -/
theorem State.finishFrames_cases (s : State) (r : Except ErrorKind (List OutboundFrame)) :
    (∃ fr, r = .ok fr ∧ s.finishFrames r = s.succeed (framesRes fr) (fr.map OutRecord.outbound)) ∨
      (∃ e, r = .error e ∧ s.finishFrames r = s.fail e) := by
  cases r with
  | ok fr => exact .inl ⟨fr, rfl, rfl⟩
  | error e => exact .inr ⟨e, rfl, rfl⟩

/-- `finishRecords` succeeds with the records, or fails with the error. -/
theorem State.finishRecords_cases (s : State) (r : Except ErrorKind (List InboundFrame)) :
    (∃ recs, r = .ok recs ∧
        s.finishRecords r = s.succeed (BitVec.ofNat 64 recs.length) (recs.map OutRecord.inbound)) ∨
      (∃ e, r = .error e ∧ s.finishRecords r = s.fail e) := by
  cases r with
  | ok recs => exact .inl ⟨recs, rfl, rfl⟩
  | error e => exact .inr ⟨e, rfl, rfl⟩

/-- `sendTransfer` either sends the frames of `create_packet` and advances TID, or fails with its error (R191). -/
theorem State.sendTransfer_cases (s : State) (k : TransferKind) (portId : BitVec 16) (remote : BitVec 8) :
    (∃ fr, createPacket s.cfg.prioNominal k portId remote s.tid s.ib s.nodeId s.mtu = .ok fr ∧
        s.sendTransfer k portId remote =
          { s.succeed (framesRes fr) (fr.map OutRecord.outbound) with tid := nextTid s.cfg.tidModulus s.tid }) ∨
      (∃ e, createPacket s.cfg.prioNominal k portId remote s.tid s.ib s.nodeId s.mtu = .error e ∧
        s.sendTransfer k portId remote = s.fail e) := by
  unfold State.sendTransfer
  cases createPacket s.cfg.prioNominal k portId remote s.tid s.ib s.nodeId s.mtu with
  | ok fr => exact .inl ⟨fr, rfl, rfl⟩
  | error e => exact .inr ⟨e, rfl, rfl⟩

/-! ## Steps -/

/-- Retiring an outcome keeps its kind. -/
theorem retireOutcome_eq_next_iff {o : Host.Outcome State Fault Refusal} {t : State} :
    retireOutcome o = .next t ↔ ∃ u, o = .next u ∧ u.retire = t := by
  cases o with
  | next u => simp [retireOutcome]
  | fault f => simp [retireOutcome]
  | refused r => simp [retireOutcome]

/-- Everything a step that answers a next state can be: idling, a reset, a decoded command run by its meaning, or a
rejected word. -/
theorem step_cases {s t : State} (h : step s = .next t) :
    (s.port = [] ∧ t = s) ∨
    (∃ rest, s.port = .reset :: rest ∧ t = s.takeReset) ∨
    (∃ cw ib rest i u, s.port = .command cw ib :: rest ∧ ib.length ≤ s.cfg.ibufCap ∧ decode cw = .command i ∧
      exec i s = .next u ∧ t = u.retire) ∨
    (∃ cw ib rest why, s.port = .command cw ib :: rest ∧ ib.length ≤ s.cfg.ibufCap ∧ decode cw = .rejected why ∧
      t = (s.fail .illegalCommand).retire) := by
  unfold step at h
  cases hp : s.port with
  | nil => rw [hp] at h; cases h; exact .inl ⟨rfl, rfl⟩
  | cons m rest =>
    rw [hp] at h
    cases m with
    | reset => cases h; exact .inr (.inl ⟨rest, rfl, rfl⟩)
    | command cw ib =>
      by_cases ha : s.admits ib = true
      · have hl : ib.length ≤ s.cfg.ibufCap := by simpa [State.admits] using ha
        simp only [ha, if_true] at h
        cases hd : decode cw with
        | command i =>
          rw [hd] at h
          obtain ⟨u, hu, rfl⟩ := retireOutcome_eq_next_iff.mp h
          exact .inr (.inr (.inl ⟨cw, ib, rest, i, u, rfl, hl, hd, hu, rfl⟩))
        | rejected why =>
          rw [hd] at h
          cases h
          exact .inr (.inr (.inr ⟨cw, ib, rest, why, rfl, hl, hd, rfl⟩))
      · simp only [ha] at h
        cases h

/-- A step on a command the port admits and the decoder accepts. -/
theorem step_command {s : State} {cw : CommandWord} {ib : List Byte} {rest : List HostMove} {i : Instr}
    (hp : s.port = .command cw ib :: rest) (hl : ib.length ≤ s.cfg.ibufCap) (hd : decode cw = .command i) :
    step s = retireOutcome (exec i s) := by
  have ha : s.admits ib = true := by simpa [State.admits] using hl
  unfold step
  rw [hp]
  simp only [ha, if_true, hd]

/-- A step on a command the port admits and the decoder rejects. -/
theorem step_rejected {s : State} {cw : CommandWord} {ib : List Byte} {rest : List HostMove} {why : DecodeError}
    (hp : s.port = .command cw ib :: rest) (hl : ib.length ≤ s.cfg.ibufCap) (hd : decode cw = .rejected why) :
    step s = .next (s.fail .illegalCommand).retire := by
  have ha : s.admits ib = true := by simpa [State.admits] using hl
  unfold step
  rw [hp]
  simp only [ha, if_true, hd, retireOutcome]

end Sys2Proof.Machine
end

