-- ==== Sys2Proof/Laws/Functions.lean ====
section
/-! SUPPORT. The small lemmas of the pure functions: CRC folding, zero sequences, slices, the DLC tables, and one round of
the fragmenter's and the parser's loops. -/

namespace Sys2Proof.Machine

/-! ## Sequences -/

@[simp] theorem zeros_length (n : Nat) : (zeros n).length = n := List.length_replicate

@[simp] theorem zeros_zero : zeros 0 = [] := rfl

theorem zeros_add (m n : Nat) : zeros m ++ zeros n = zeros (m + n) := List.replicate_append_replicate

theorem drop_zeros (m n : Nat) : (zeros n).drop m = zeros (n - m) := List.drop_replicate

theorem allZero_zeros (n : Nat) : allZero (zeros n) = true := by
  simp [allZero, zeros]

theorem slice_length (s : List Byte) (a b : Nat) (h : b ≤ s.length) : (slice s a b).length = b - a := by
  simp only [slice, List.length_take, List.length_drop]; omega

theorem byteAt_of_lt (s : List Byte) (i : Nat) (h : i < s.length) : byteAt s i = s[i] := by
  simp [byteAt, h]

/-! ## CRC -/

@[simp] theorem crcFold_nil (c : CrcState) : crcFold c [] = c := rfl

@[simp] theorem crcFold_cons (c : CrcState) (b : Byte) (bs : List Byte) :
    crcFold c (b :: bs) = crcFold (crcUpdate c b) bs := rfl

/-- The fold is the library's left fold. -/
theorem crcFold_eq_foldl (c : CrcState) (bs : List Byte) : crcFold c bs = bs.foldl crcUpdate c := by
  induction bs generalizing c with
  | nil => rfl
  | cons b bs ih => exact ih (crcUpdate c b)

/-! ## DLC tables -/

/-- The values of the length table. -/
theorem dlcLen_le (d : Nat) : dlcLen d ≤ 64 := by
  by_cases h : d < 16
  · revert d; decide
  · have hd : dlcToLenTable.length ≤ d := by simp [dlcToLenTable]; omega
    have : dlcLen d = 0 := List.getD_eq_default _ _ hd
    omega

/-- Rounding up never shrinks a length of at most 64. -/
theorem le_quantize (n : Nat) (h : n ≤ 64) : n ≤ quantize n := by
  have : ∀ n < 65, n ≤ quantize n := by decide
  exact this n (by omega)

/-- Rounding up stays within the largest frame length. -/
theorem quantize_le (n : Nat) : quantize n ≤ 64 := dlcLen_le _

/-- Rounding up is monotone on 0 to 64. -/
theorem quantize_mono {m n : Nat} (h : m ≤ n) (hn : n ≤ 64) : quantize m ≤ quantize n := by
  have : ∀ n < 65, ∀ m < 65, m ≤ n → quantize m ≤ quantize n := by decide
  exact this n (by omega) m (by omega) h

theorem roundUpFrameLength_of_le {n : Nat} (h : n ≤ 64) : roundUpFrameLength n = .ok (quantize n) := by
  simp [roundUpFrameLength, frameLengthMax]; omega

theorem roundUpFrameLength_of_gt {n : Nat} (h : 64 < n) : roundUpFrameLength n = .error .invalidFrameSize := by
  simp [roundUpFrameLength, frameLengthMax]; omega

/-! ## Tail bytes -/

/-- `make_tail_byte` fails only for a start bit without the initial toggle. -/
theorem makeTailByte_cases (startBit endBit toggle : Bool) (tid : BitVec 8) :
    (startBit = true ∧ toggle = false ∧ makeTailByte startBit endBit toggle tid = .error .invalidState) ∨
      (¬(startBit = true ∧ toggle = false) ∧ makeTailByte startBit endBit toggle tid =
        .ok (BitVec.ofBool startBit ++ BitVec.ofBool endBit ++ BitVec.ofBool toggle ++ tid.extractLsb' 0 5)) := by
  cases startBit <;> cases toggle <;> simp [makeTailByte, initialToggle]

/-! ## The fragmenter's loop -/

theorem copyPayload_off (payload : List Byte) (p off : Nat) (c : CrcState) :
    (copyPayload payload p off c).off = off + min (payload.length - off) p := rfl

theorem copyPayload_length (payload : List Byte) (p off : Nat) (c : CrcState) :
    (copyPayload payload p off c).d.length = min (payload.length - off) p := by
  simp only [copyPayload, slice, List.length_take, List.length_drop]; omega

theorem padFrame_length (cap : Nat) (f : Fill) : (padFrame cap f).d.length = max f.d.length (cap - 2) := by
  simp only [padFrame, crcSize, List.length_append, zeros_length]; omega

/-- Past the last byte the loop is done. -/
theorem multiFrameLoop_done (xid : CanId) (tid : BitVec 8) (payload : List Byte) (p mtu fuel : Nat)
    (first toggle : Bool) (off : Nat) (c : CrcState) (h : payload.length + 2 ≤ off) :
    multiFrameLoop xid tid payload p mtu fuel first toggle off c = .ok [] := by
  cases fuel with
  | zero => rfl
  | succ n => simp only [multiFrameLoop, crcSize]; rw [if_neg (by omega)]

/-- One round of the loop, with the tail byte it appends. -/
theorem multiFrameLoop_round {xid : CanId} {tid : BitVec 8} {payload : List Byte} {p mtu fuel : Nat}
    {first toggle : Bool} {off : Nat} {c : CrcState} {t : Byte} (h : off < payload.length + 2)
    (ht : makeTailByte first (decide (payload.length + 2 ≤
      (fillFrame payload p (multiFrameLength p (payload.length + 2 - off) - 1) off c).off)) toggle tid = .ok t) :
    multiFrameLoop xid tid payload p mtu (fuel + 1) first toggle off c =
      (multiFrameLoop xid tid payload p mtu fuel false (!toggle)
        (fillFrame payload p (multiFrameLength p (payload.length + 2 - off) - 1) off c).off
        (fillFrame payload p (multiFrameLength p (payload.length + 2 - off) - 1) off c).crc).map
        (fun rest =>
          { xid := xid, len := multiFrameLength p (payload.length + 2 - off),
            data := (fillFrame payload p (multiFrameLength p (payload.length + 2 - off) - 1) off c).d ++ [t] ++
              zeros (mtu - multiFrameLength p (payload.length + 2 - off)) } :: rest) := by
  simp only [multiFrameLoop, crcSize]
  rw [if_pos h, ht]
  cases multiFrameLoop xid tid payload p mtu fuel false (!toggle)
    (fillFrame payload p (multiFrameLength p (payload.length + 2 - off) - 1) off c).off
    (fillFrame payload p (multiFrameLength p (payload.length + 2 - off) - 1) off c).crc <;> rfl

/-! ## The parser's loop -/

/-- One round of the parser: the record at `j`, then the rest. -/
theorem parseRecords_eq_ok_cons {msb : SubjectRxMsb} {ib : List Byte} {mtu n j : Nat} {rs : List InboundFrame} :
    parseRecords msb ib mtu (n + 1) j = .ok rs ↔
      ∃ r rest, parseRecord msb ib mtu (j * recordSize mtu) = .ok r ∧
        parseRecords msb ib mtu n (j + 1) = .ok rest ∧ rs = r :: rest := by
  simp only [parseRecords]
  cases parseRecord msb ib mtu (j * recordSize mtu) with
  | error e => simp
  | ok r =>
    cases parseRecords msb ib mtu n (j + 1) with
    | error e => simp
    | ok rest => simp [eq_comm]

/-- Every error of the parser's records is InvalidFrameLength. -/
theorem parseRecord_error {msb : SubjectRxMsb} {ib : List Byte} {mtu b : Nat} {e : ErrorKind}
    (h : parseRecord msb ib mtu b = .error e) : e = .invalidFrameLength := by
  simp only [parseRecord] at h
  split at h <;> cases h
  rfl

theorem parseRecords_error {msb : SubjectRxMsb} {ib : List Byte} {mtu n j : Nat} {e : ErrorKind}
    (h : parseRecords msb ib mtu n j = .error e) : e = .invalidFrameLength := by
  induction n generalizing j with
  | zero => cases h
  | succ n ih =>
    simp only [parseRecords] at h
    cases hr : parseRecord msb ib mtu (j * recordSize mtu) with
    | error e' => rw [hr] at h; cases h; exact parseRecord_error hr
    | ok r =>
      rw [hr] at h
      cases hs : parseRecords msb ib mtu n (j + 1) with
      | error e' => rw [hs] at h; cases h; exact ih hs
      | ok rest => rw [hs] at h; cases h

/-- The parser reads one frame per record. -/
theorem parseRecords_length {msb : SubjectRxMsb} {ib : List Byte} {mtu n j : Nat} {rs : List InboundFrame}
    (h : parseRecords msb ib mtu n j = .ok rs) : rs.length = n := by
  induction n generalizing j rs with
  | zero => cases h; rfl
  | succ n ih =>
    obtain ⟨r, rest, _, hrest, rfl⟩ := parseRecords_eq_ok_cons.mp h
    rw [List.length_cons, ih hrest]

end Sys2Proof.Machine
end

