-- ==== Sys2Proof/Laws/PerInstr.lean ====
section
/-! SUPPORT. The family of facts made per command, one lemma for each constructor of Instr. -/

namespace Sys2Proof.Laws.EncodingFitsRow

open Sys2Proof

/-- The command word of `i` carries the opcode of a row of opcode_table.json and has every reserved bit of that row clear
(30_encoding.md R82, R83), whether or not `i` is well formed, and the row's fields are `i`'s own operands. -/
def Statement (i : Instr) : Prop :=
  ∃ row, opcodeRow (fieldOpc (encode i)) = some row ∧ encode i &&& row.mask = row.pattern ∧ row.build (encode i) = i

theorem crcUpdate (byte : BitVec 8) (crc : BitVec 16) : Statement (.crcUpdate byte crc) := by
  have hm : (0xFFFFFF0000FF00FF : CommandWord) =
      assembleR 0xffff 0x7 0x3 0x7 0x0 0xff 0x0 0xFF := by decide
  refine ⟨_, by rw [encode, fieldOpc_assembleR]; rfl, ?_, ?_⟩
  · rw [encode, hm, assembleR_and]; simp [assembleR]
  · simp [encode]

theorem crcCompute (initial : BitVec 16) (declared : BitVec 16) : Statement (.crcCompute initial declared) := by
  have hm : (0x0000FF0000FFFFFF : CommandWord) =
      assembleR 0x0 0x7 0x3 0x7 0x0 0xff 0xff 0xFF := by decide
  refine ⟨_, by rw [encode, fieldOpc_assembleR]; rfl, ?_, ?_⟩
  · rw [encode, hm, assembleR_and]; simp [assembleR]
  · simp [encode]

theorem dlcToLen (dlc : BitVec 8) : Statement (.dlcToLen dlc) := by
  have hm : (0xFFFFFFFFFFFF00FF : CommandWord) =
      assembleR 0xffff 0x7 0x3 0x7 0xffff 0xff 0x0 0xFF := by decide
  refine ⟨_, by rw [encode, fieldOpc_assembleR]; rfl, ?_, ?_⟩
  · rw [encode, hm, assembleR_and]; simp [assembleR]
  · simp [encode]

theorem lenToDlc (n : BitVec 16) : Statement (.lenToDlc n) := by
  have hm : (0xFFFFFF0000FFFFFF : CommandWord) =
      assembleR 0xffff 0x7 0x3 0x7 0x0 0xff 0xff 0xFF := by decide
  refine ⟨_, by rw [encode, fieldOpc_assembleR]; rfl, ?_, ?_⟩
  · rw [encode, hm, assembleR_and]; simp [assembleR]
  · simp [encode]

theorem roundUpLen (n : BitVec 16) : Statement (.roundUpLen n) := by
  have hm : (0xFFFFFF0000FFFFFF : CommandWord) =
      assembleR 0xffff 0x7 0x3 0x7 0x0 0xff 0xff 0xFF := by decide
  refine ⟨_, by rw [encode, fieldOpc_assembleR]; rfl, ?_, ?_⟩
  · rw [encode, hm, assembleR_and]; simp [assembleR]
  · simp [encode]

theorem makeMessageId (src : BitVec 8) (subject : BitVec 16) : Statement (.makeMessageId src subject) := by
  have hm : (0xFFFFFF0000FF00FF : CommandWord) =
      assembleR 0xffff 0x7 0x3 0x7 0x0 0xff 0x0 0xFF := by decide
  refine ⟨_, by rw [encode, fieldOpc_assembleR]; rfl, ?_, ?_⟩
  · rw [encode, hm, assembleR_and]; simp [assembleR]
  · simp [encode]

theorem makeServiceId (src : BitVec 8) (dst : BitVec 8) (service : BitVec 16) (isRequest : Bool) : Statement (.makeServiceId src dst service isRequest) := by
  have hm : (0xFFFFDF00000000FF : CommandWord) =
      assembleR 0xffff 0x6 0x3 0x7 0x0 0x0 0x0 0xFF := by decide
  refine ⟨_, by rw [encode, fieldOpc_assembleR]; rfl, ?_, ?_⟩
  · rw [encode, hm, assembleR_and]
    cases isRequest <;> simp [assembleR, flagField]
  · simp [encode]

theorem makeCanId (localNode : BitVec 8) (remoteNode : BitVec 8) (portId : BitVec 16) (priority : BitVec 3) (kind : BitVec 2) : Statement (.makeCanId localNode remoteNode portId priority kind) := by
  have hm : (0xFFFFE000000000FF : CommandWord) =
      assembleR 0xffff 0x7 0x0 0x0 0x0 0x0 0x0 0xFF := by decide
  refine ⟨_, by rw [encode, fieldOpc_assembleR]; rfl, ?_, ?_⟩
  · rw [encode, hm, assembleR_and]; simp [assembleR]
  · simp [encode]

theorem unpackId (id : BitVec 32) : Statement (.unpackId id) := by
  refine ⟨_, by rw [encode, fieldOpc_assembleX]; rfl, ?_, ?_⟩
  · rw [encode]
    refine (BitVec.and_append (x₁ := 0#24 ++ id) (x₂ := 0xFFFFFF#24 ++ 0#32) (y₁ := 0x23#8) (y₂ := 0xFF#8)).trans ?_
    rw [BitVec.and_append]; simp
  · simp [encode]

theorem makeTail (tid : BitVec 8) (startBit : Bool) (endBit : Bool) (toggle : Bool) : Statement (.makeTail tid startBit endBit toggle) := by
  have hm : (0xFFFF1FFFFFFF00FF : CommandWord) =
      assembleR 0xffff 0x0 0x3 0x7 0xffff 0xff 0x0 0xFF := by decide
  refine ⟨_, by rw [encode, fieldOpc_assembleR]; rfl, ?_, ?_⟩
  · rw [encode, hm, assembleR_and]; simp [assembleR]
  · simp [encode]

theorem decodeTail (tail : BitVec 8) : Statement (.decodeTail tail) := by
  have hm : (0xFFFFFFFFFFFF00FF : CommandWord) =
      assembleR 0xffff 0x7 0x3 0x7 0xffff 0xff 0x0 0xFF := by decide
  refine ⟨_, by rw [encode, fieldOpc_assembleR]; rfl, ?_, ?_⟩
  · rw [encode, hm, assembleR_and]; simp [assembleR]
  · simp [encode]

theorem createPacket (tid : BitVec 8) (remoteNode : BitVec 8) (portId : BitVec 16) (priority : BitVec 3) (kind : BitVec 2) : Statement (.createPacket tid remoteNode portId priority kind) := by
  have hm : (0xFFFFE000000000FF : CommandWord) =
      assembleR 0xffff 0x7 0x0 0x0 0x0 0x0 0x0 0xFF := by decide
  refine ⟨_, by rw [encode, fieldOpc_assembleR]; rfl, ?_, ?_⟩
  · rw [encode, hm, assembleR_and]; simp [assembleR]
  · simp [encode]

theorem sendMessage (subject : BitVec 16) : Statement (.sendMessage subject) := by
  have hm : (0xFFFFFF0000FFFFFF : CommandWord) =
      assembleR 0xffff 0x7 0x3 0x7 0x0 0xff 0xff 0xFF := by decide
  refine ⟨_, by rw [encode, fieldOpc_assembleR]; rfl, ?_, ?_⟩
  · rw [encode, hm, assembleR_and]; simp [assembleR]
  · simp [encode]

theorem sendRequest (dst : BitVec 8) (service : BitVec 16) : Statement (.sendRequest dst service) := by
  have hm : (0xFFFFFF000000FFFF : CommandWord) =
      assembleR 0xffff 0x7 0x3 0x7 0x0 0x0 0xff 0xFF := by decide
  refine ⟨_, by rw [encode, fieldOpc_assembleR]; rfl, ?_, ?_⟩
  · rw [encode, hm, assembleR_and]; simp [assembleR]
  · simp [encode]

theorem sendResponse (dst : BitVec 8) (service : BitVec 16) : Statement (.sendResponse dst service) := by
  have hm : (0xFFFFFF000000FFFF : CommandWord) =
      assembleR 0xffff 0x7 0x3 0x7 0x0 0x0 0xff 0xFF := by decide
  refine ⟨_, by rw [encode, fieldOpc_assembleR]; rfl, ?_, ?_⟩
  · rw [encode, hm, assembleR_and]; simp [assembleR]
  · simp [encode]

theorem parseBuffer : Statement (.parseBuffer) := by
  have hm : (0xFFFFFFFFFFFFFFFF : CommandWord) =
      assembleR 0xffff 0x7 0x3 0x7 0xffff 0xff 0xff 0xFF := by decide
  refine ⟨_, by rw [encode, fieldOpc_assembleR]; rfl, ?_, ?_⟩
  · decide
  · rfl

theorem init (node : BitVec 8) (mtu : BitVec 16) : Statement (.init node mtu) := by
  have hm : (0xFFFFFF0000FF00FF : CommandWord) =
      assembleR 0xffff 0x7 0x3 0x7 0x0 0xff 0x0 0xFF := by decide
  refine ⟨_, by rw [encode, fieldOpc_assembleR]; rfl, ?_, ?_⟩
  · rw [encode, hm, assembleR_and]; simp [assembleR]
  · simp [encode]

theorem setNodeId (node : BitVec 8) : Statement (.setNodeId node) := by
  have hm : (0xFFFFFFFFFFFF00FF : CommandWord) =
      assembleR 0xffff 0x7 0x3 0x7 0xffff 0xff 0x0 0xFF := by decide
  refine ⟨_, by rw [encode, fieldOpc_assembleR]; rfl, ?_, ?_⟩
  · rw [encode, hm, assembleR_and]; simp [assembleR]
  · simp [encode]

theorem readState : Statement (.readState) := by
  have hm : (0xFFFFFFFFFFFFFFFF : CommandWord) =
      assembleR 0xffff 0x7 0x3 0x7 0xffff 0xff 0xff 0xFF := by decide
  refine ⟨_, by rw [encode, fieldOpc_assembleR]; rfl, ?_, ?_⟩
  · decide
  · rfl

end Sys2Proof.Laws.EncodingFitsRow
end

