-- ==== Sys2Proof/Tests/Slice0.lean ====
section
/-! SUPPORT. Tests. Every expected value comes from spec/: the vectors of 95_test_vectors.md (named in each comment) or the
encoding of 30_encoding.md written out by hand. -/

namespace Sys2Proof.Tests

open Sys2Proof Sys2Proof.Machine

/-! ## WellFormed: an ill-formed term for each check -/

theorem test_makeCanId_kind3_refused : (Instr.makeCanId 0 0xFF 0 0 3).wellFormed = false := by decide
theorem test_createPacket_kind3_refused : (Instr.createPacket 0 0xFF 0 0 3).wellFormed = false := by decide
theorem test_makeCanId_kind2_accepted : (Instr.makeCanId 7 42 430 4 2).wellFormed = true := by decide

/-! ## Decode: one word per constructor, OPC and fields placed by 30_encoding.md R80, R82 -/

-- V3
theorem test_decode_crcUpdate : decode 0x000000FFFF003101 = .command (.crcUpdate 0x31 0xFFFF) := by decide
-- V15
theorem test_decode_crcCompute : decode 0x000900FFFF000002 = .command (.crcCompute 0xFFFF 9) := by decide
-- V25
theorem test_decode_dlcToLen : decode 0x0000000000000D10 = .command (.dlcToLen 13) := by decide
-- V33
theorem test_decode_lenToDlc : decode 0x0000000021000011 = .command (.lenToDlc 33) := by decide
-- V40
theorem test_decode_roundUpLen : decode 0x000000000A000012 = .command (.roundUpLen 10) := by decide
-- V49
theorem test_decode_makeMessageId : decode 0x0000000064000A20 = .command (.makeMessageId 10 100) := by decide
-- V55
theorem test_decode_makeServiceId : decode 0x00002001AE072A21 = .command (.makeServiceId 42 7 430 true) := by decide
-- V69
theorem test_decode_makeCanId : decode 0x00001401AE2A0722 = .command (.makeCanId 7 42 430 4 2) := by decide
-- V80
theorem test_decode_unpackId : decode 0x000000126B950723 = .command (.unpackId 0x126B9507) := by decide
-- V89, and the flags of R86 one by one
theorem test_decode_makeTail : decode 0x0000A00000000530 = .command (.makeTail 5 true false true) := by decide
theorem test_decode_makeTail_end : decode 0x0000400000000530 = .command (.makeTail 5 false true false) := by decide
-- V98
theorem test_decode_decodeTail : decode 0x0000000000004131 = .command (.decodeTail 0x41) := by decide
-- F25
theorem test_decode_createPacket : decode 0x00000C01AE070040 = .command (.createPacket 0 7 430 4 1) := by decide
-- P1
theorem test_decode_sendMessage : decode 0x0000000064000041 = .command (.sendMessage 100) := by decide
-- P2
theorem test_decode_sendRequest : decode 0x00000001AE070042 = .command (.sendRequest 7 430) := by decide
-- F29
theorem test_decode_sendResponse : decode 0x00000001AE2A0043 = .command (.sendResponse 42 430) := by decide
-- X1
theorem test_decode_parseBuffer : decode 0x0000000000000050 = .command .parseBuffer := by decide
-- K2
theorem test_decode_init : decode 0x0000000040002A70 = .command (.init 42 64) := by decide
-- K6
theorem test_decode_setNodeId : decode 0x0000000000000571 = .command (.setNodeId 5) := by decide
-- K7
theorem test_decode_readState : decode 0x0000000000000072 = .command .readState := by decide

/-! ## Decode: rejections, in the order of 30_encoding.md R88 -/

-- K10, K11
theorem test_decode_reservedOpcode : decode 0 = .rejected .reservedOpcode ∧ decode 0xFF = .rejected .reservedOpcode := by
  decide
-- V20, V48, V60, V85, V104, X9, K9
theorem test_decode_reservedBits : decode 0x000000FFFF010001 = .rejected .reservedBits ∧
    decode 0x0000000001000D10 = .rejected .reservedBits ∧ decode 0x0000400001000021 = .rejected .reservedBits ∧
    decode 0x0000010000000023 = .rejected .reservedBits ∧ decode 0x0000E00000010030 = .rejected .reservedBits ∧
    decode 0x0000000000000150 = .rejected .reservedBits ∧ decode 0x0100000000000072 = .rejected .reservedBits := by
  decide
-- V74, F27; and KIND = 3 with a reserved bit set is rejected for the bit
theorem test_decode_reservedKind : decode 0x0000180000FF0022 = .rejected .reservedKind ∧
    decode 0x0000180000FF0040 = .rejected .reservedKind ∧ decode 0x0001180000FF0040 = .rejected .reservedBits := by
  decide

/-! ## Encode: the same words -/

theorem test_encode_words : encode (.makeServiceId 42 7 430 true) = 0x00002001AE072A21 ∧
    encode (.makeCanId 7 42 430 4 2) = 0x00001401AE2A0722 ∧ encode (.unpackId 0x126B9507) = 0x000000126B950723 ∧
    encode (.makeTail 5 true false true) = 0x0000A00000000530 ∧ encode (.crcCompute 0xFFFF 9) = 0x000900FFFF000002 ∧
    encode (.init 42 64) = 0x0000000040002A70 := by decide

theorem test_decodeTableWord : decodeTableWord 64 0x0000000040002A70 = some (.init 42 64) ∧
    decodeTableWord 8 0x172 = some .readState ∧ decodeTableWord 64 0 = none := by decide

/-! ## One step per test -/

/-- A small state: a node id, an MTU and a counter, and one command to come. -/
def small (node : BitVec 8) (mtu : BitVec 7) (tid : BitVec 8) (cw : CommandWord) (ib : List Byte) : State :=
  { State.reset with nodeId := node, mtu := mtu, tid := tid, port := [.command cw ib] }

/-- STATUS and RES after one step. -/
def result (s : State) : Option (BitVec 8 × BitVec 64) :=
  match step s with
  | .next t => some (t.status, t.res)
  | _ => none

/-- NODE_ID, MTU and TID after one step. -/
def registers (s : State) : Option (BitVec 8 × BitVec 7 × BitVec 8) :=
  match step s with
  | .next t => some (t.nodeId, t.mtu, t.tid)
  | _ => none

/-- OUT after one step. -/
def output (s : State) : Option (List OutRecord) :=
  match step s with
  | .next t => some t.out
  | _ => none

-- V7 (top bit set on entry), V8
theorem test_crcUpdate : result (small 0 8 0 0x0000008000000001 []) = some (0, 0x9188) := by decide
theorem test_crcUpdate_mixed : result (small 0 8 0 0x0000001234005601 []) = some (0, 0x3C40) := by decide
-- V15, V18
set_option maxRecDepth 20000 in
theorem test_crcCompute_check :
    result (small 0 8 0 0x000900FFFF000002 [0x31, 0x32, 0x33, 0x34, 0x35, 0x36, 0x37, 0x38, 0x39]) =
      some (0, 0x29B1) := by decide
theorem test_crcCompute_mismatch : result (small 0 8 0 0x000000FFFF000002 [0]) = some (6, 0) := by decide
-- V24, V27
theorem test_dlcToLen : result (small 0 8 0 0x0000000000000910 []) = some (0, 12) := by decide
theorem test_dlcToLen_16 : result (small 0 8 0 0x0000000000001010 []) = some (2, 0) := by decide
-- V34, V36
theorem test_lenToDlc : result (small 0 8 0 0x0000000031000011 []) = some (0, 15) := by decide
theorem test_lenToDlc_65 : result (small 0 8 0 0x0000000041000011 []) = some (2, 0) := by decide
-- V43, V46
theorem test_roundUpLen : result (small 0 8 0 0x0000000019000012 []) = some (0, 32) := by decide
theorem test_roundUpLen_65 : result (small 0 8 0 0x0000000041000012 []) = some (2, 0) := by decide
-- V50, V52
theorem test_makeMessageId_max : result (small 0 8 0 0x0000001FFF007F20 []) = some (0, 0x1FFF7F) := by decide
theorem test_makeMessageId_8192 : result (small 0 8 0 0x0000002000000020 []) = some (1, 0) := by decide
-- V56, V59
theorem test_makeServiceId : result (small 0 8 0 0x00000001AE2A0721 []) = some (0, 0x26B9507) := by decide
theorem test_makeServiceId_dst128 : result (small 0 8 0 0x0000000001800021 []) = some (1, 0) := by decide
-- V62 (anonymous: source field from the CRC), V73 (zero identifier)
set_option maxRecDepth 20000 in
theorem test_makeCanId_anonymous : result (small 0 8 0 0x0000040064FFFF22 [1, 2, 3]) = some (0, 0x1100642D) := by decide
theorem test_makeCanId_zero : result (small 0 8 0 0x0000000000FF0022 []) = some (4, 0) := by decide
-- V79, V81
theorem test_unpackId_service : result (small 0 8 0 0x0000001F9AB80A23 []) = some (0, 0xF700A006A) := by decide
theorem test_unpackId_bit21 : result (small 0 8 0 0x0000000060640A23 []) = some (0, 0xFF0A2064) := by decide
-- V88, V95
theorem test_makeTail_masks : result (small 0 8 0 0x0000E00000002530 []) = some (0, 0xE5) := by decide
theorem test_makeTail_start_needs_toggle : result (small 0 8 0 0x0000800000000030 []) = some (5, 0) := by decide
-- V97, V99
theorem test_decodeTail_start : result (small 0 8 0 0x000000000000A131 []) = some (0, 0x1A1) := by decide
theorem test_decodeTail_inProcess : result (small 0 8 0 0x0000000000003F31 []) = some (0, 0x33F) := by decide
-- F7: the CRC bytes split over two frames; F15: single-frame padding at MTU 64 (length 12)
set_option maxRecDepth 20000 in
theorem test_createPacket_crc_split :
    output (small 10 8 0 0x0000040064FF0040 [1, 2, 3, 4, 5, 6, 7, 8, 9, 10, 11, 12, 13]) = some
      [.outbound ⟨0x1000640A, 8, [1, 2, 3, 4, 5, 6, 7, 0xA0]⟩,
       .outbound ⟨0x1000640A, 8, [8, 9, 10, 11, 12, 13, 0xF9, 0x00]⟩,
       .outbound ⟨0x1000640A, 2, [0xAD, 0x60, 0, 0, 0, 0, 0, 0]⟩] := by decide
theorem test_createPacket_padding :
    output (small 10 64 0 0x0000040064FF0040 [1, 2, 3, 4, 5, 6, 7, 8, 9]) = some
      [.outbound ⟨0x1000640A, 12, [1, 2, 3, 4, 5, 6, 7, 8, 9, 0, 0, 0xE0] ++ zeros 52⟩] := by decide
-- F28: TID 255 wraps to 0 and the tail byte keeps its low five bits; P3 step 2: a refused transfer keeps TID
theorem test_sendMessage_wrap : registers (small 10 8 255 0x0000000001000041 []) = some (10, 8, 0) ∧
    output (small 10 8 255 0x0000000001000041 []) = some [.outbound ⟨0x1000010A, 1, 0xFF :: zeros 7⟩] := by decide
theorem test_sendMessage_anonymous_multi :
    result (small 0xFF 8 1 0x0000001D55000041 [0, 1, 2, 3, 4, 5, 6, 7]) = some (4, 0) ∧
    registers (small 0xFF 8 1 0x0000001D55000041 [0, 1, 2, 3, 4, 5, 6, 7]) = some (0xFF, 8, 1) := by decide
-- P2 step 2's identifier, F31
theorem test_sendRequest : result (small 42 64 0 0x00000001AE070042 [1]) = some (0, 0x136B83AA00000001) := by decide
theorem test_sendRequest_512 : registers (small 7 8 3 0x0000000200010042 [5]) = some (7, 8, 3) := by decide
-- F29
theorem test_sendResponse : result (small 7 8 3 0x00000001AE2A0043 [5]) = some (0, 0x126B950700000001) ∧
    output (small 7 8 3 0x00000001AE2A0043 [5]) = some [.outbound ⟨0x126B9507, 2, [5, 0xE3, 0, 0, 0, 0, 0, 0]⟩] := by
  decide
-- X6: start with toggle 0 is not checked, bits 31:29 are masked; X7: one bad record fails the whole command
theorem test_parseBuffer :
    output (small 10 8 0 0x50 [0xFF, 0xFF, 0xFF, 0xFF, 0, 0, 1, 0, 0x9F, 0, 0, 0, 0, 0, 0, 0]) = some
      [.inbound ⟨0x1FFFFFFF, 7, .request, 511, 127, 127, 31, true, false, false, .multiStart, 1, 0, zeros 8⟩] := by
  decide
theorem test_parseBuffer_bad_record :
    result (small 10 8 0 0x50 ([0x0A, 0x64, 0, 0x10, 0, 0, 4, 0, 1, 2, 3, 0xE0, 0, 0, 0, 0]
      ++ [0x0A, 0x64, 0, 0x10] ++ zeros 12)) = some (3, 0) := by decide
-- K2, K3
theorem test_init : registers (small 0xFF 8 9 0x0000000040002A70 []) = some (42, 64, 0) := by decide
theorem test_init_mtu10 : result (small 0xFF 8 9 0x000000000A000170 []) = some (2, 0) ∧
    registers (small 0xFF 8 9 0x000000000A000170 []) = some (0xFF, 8, 9) := by decide
-- K6
theorem test_setNodeId : registers (small 10 8 3 0x0000000000000571 []) = some (5, 8, 3) := by decide
-- K8
theorem test_readState : result (small 10 8 2 0x0000000000000072 []) = some (0, 0x0002080A) := by decide
-- K10: a rejected word is IllegalCommand
theorem test_illegal_word : result (small 10 8 2 0 []) = some (7, 0) := by decide

/-! ## The step itself -/

/-- The fetch word runs first, before the host's other moves, which stay. -/
theorem test_withFetchWord :
    (match step ((small 10 8 2 0x0000000000000571 []).withFetchWord 64 0x72) with
     | .next t => some (t.res, t.port)
     | _ => none) = some (0x0002080A, [.command 0x0000000000000571 []]) := by decide

theorem test_idle : (match step State.reset with | .next t => decide (t = State.reset) | _ => false) = true := by decide

/-- An input longer than IBUF_CAP is not admitted. -/
theorem test_inputTooLong :
    (match step { small 10 8 2 0x72 [1, 2] with cfg := { Config.default with ibufCap := 1 } } with
     | .refused .inputTooLong => true
     | _ => false) = true := by decide

end Sys2Proof.Tests
end

