-- ==== Sys2Proof/Tests/Witnesses.lean ====
section
/-! SUPPORT. For every statement that has hypotheses, a concrete state and operands that meet them together: one theorem
per statement, one conjunct per clause, at a boundary value of the clause's range where it has one. -/

namespace Sys2Proof.Tests

open Sys2Proof Sys2Proof.Machine

/-- `State.reset` with a node id, an MTU and an input sequence in progress. -/
def holding (node : BitVec 8) (mtu : BitVec 7) (ib : List Byte) : State :=
  { State.reset with nodeId := node, mtu := mtu, port := [.command 0 ib] }

/-- `State.reset` with an IBUF_CAP of three bytes, so that a boundary input is short. -/
def smallCap : State := { State.reset with cfg := { Config.default with ibufCap := 3 } }

/-- Seven, eight payload bytes: exactly P and P + 1 at MTU 8. -/
def payload7 : List Byte := [1, 2, 3, 4, 5, 6, 7]
def payload8 : List Byte := [1, 2, 3, 4, 5, 6, 7, 8]

/-- A SEND_MESSAGE as the host's next move. -/
def sending (s : State) : State := s.issue 0x0000000001000041 []

/-! ## The machine as a whole -/

theorem witness_HostResetAndIdleSteps : State.reset.port = [] := rfl

theorem witness_StepRunsTheDecodedCommand :
    (([1, 2, 3] : List Byte).length ≤ smallCap.cfg.ibufCap ∧ decode 0x72 = .command .readState ∧
      ∃ t, exec .readState (smallCap.issue 0x72 [1, 2, 3]) = .next t) ∧
    smallCap.cfg.ibufCap < ([1, 2, 3, 4] : List Byte).length :=
  ⟨⟨by decide, by decide, _, rfl⟩, by decide⟩

theorem reset_issue_inv (w : CommandWord) (ib : List Byte) : (State.reset.issue w ib).Inv :=
  ⟨(by decide : State.reset.cfg.wf), (by decide : legalMtu State.reset.mtu.toNat = true),
    (by decide : State.reset.tid.toNat < tidModulus State.reset.cfg.tidModulus),
    (by decide : State.reset.status.toNat ≤ 7), fun h => absurd rfl h, .inl (fun _ h => by cases h),
    (fun _ h => by cases h), (by decide : State.reset.out.length ≤ State.reset.cfg.outCap)⟩

theorem witness_EveryStepKeepsTheStateLegal :
    (State.reset.issue 0x0000000064000041 [1, 2, 3]).Inv ∧
      ∃ t, step (State.reset.issue 0x0000000064000041 [1, 2, 3]) = .next t :=
  ⟨reset_issue_inv _ _, _, rfl⟩

theorem witness_EveryAdmittedStepAnswersNext : ∀ cw ib rest,
    (smallCap.issue 0x72 [1, 2, 3]).port = .command cw ib :: rest → ib.length ≤ smallCap.cfg.ibufCap := by
  intro cw ib rest h; cases h; decide

theorem witness_FailedCommandChangesOnlyResults :
    (∃ t, exec (.init 1 10) State.reset = .next t ∧ t.status ≠ 0) ∧
    (∃ t, step (State.reset.issue 0x73 []) = .next t ∧ t.status ≠ 0) :=
  ⟨⟨_, rfl, by decide⟩, _, rfl, by decide⟩

theorem witness_EachCommandWritesOnlyItsCodes : ∃ t, exec (.init 1 8) State.reset = .next t := ⟨_, rfl⟩

theorem witness_UnreadInputIsIgnored : readsInput .readState = false ∧ ∃ t, exec .readState State.reset = .next t :=
  ⟨rfl, _, rfl⟩

theorem witness_RegistersAreWrittenOnlyByTheirCommands :
    (∃ t, exec (.init 10 64) State.reset = .next t ∧ t.nodeId ≠ State.reset.nodeId ∧ t.mtu ≠ State.reset.mtu) ∧
    (∃ t, exec (.init 10 8) { State.reset with tid := 255 } = .next t ∧ t.tid ≠ 255) ∧
    (∃ t, exec (.setNodeId 127) State.reset = .next t ∧ t.nodeId ≠ State.reset.nodeId) ∧
    (∃ t, exec (.sendMessage 100) State.reset = .next t ∧ t.tid ≠ State.reset.tid) :=
  ⟨⟨_, rfl, by decide, by decide⟩, ⟨_, rfl, by decide⟩, ⟨_, rfl, by decide⟩, ⟨_, rfl, by decide⟩⟩

theorem witness_UnreadRegistersDoNotShow :
    (∃ t, exec (.makeCanId 10 255 100 4 0) State.reset = .next t) ∧ readsNodeId (.makeCanId 10 255 100 4 0) = false ∧
    (∃ t, exec (.init 10 8) State.reset = .next t) ∧ readsMtu (.init 10 8) = false ∧
    (∃ t, exec (.createPacket 0 255 100 4 0) State.reset = .next t) ∧ readsTid (.createPacket 0 255 100 4 0) = false :=
  ⟨⟨_, rfl⟩, rfl, ⟨_, rfl⟩, rfl, ⟨_, rfl⟩, rfl⟩

theorem witness_BeforeInitOnlyShortMessagesAreSent :
    (holding 0xFF 8 payload7).nodeId = State.reset.nodeId ∧ (holding 0xFF 8 payload7).mtu = State.reset.mtu ∧
      (holding 0xFF 8 payload7).ib.length = 7 := by decide

/-! ## Encoding -/

theorem witness_EncodedCommandsDecodeBack : (Instr.createPacket 255 255 65535 7 2).wellFormed = true := by decide

theorem witness_DecodedWordsEncodeBack : decode 0xFFFF00FFFF000002 = .command (.crcCompute 0xFFFF 0xFFFF) := by decide

theorem witness_DecodeChecksInOrder :
    ((0x73 : CommandWord).extractLsb 7 0 ∉ opcodeMasks.map Prod.fst) ∧
    ((0x72, 0xFFFFFFFFFFFFFFFF) ∈ opcodeMasks ∧ (0x0100000000000072 : CommandWord).extractLsb 7 0 = (0x72 : BitVec 8) ∧
      (0x0100000000000072 : CommandWord) &&& 0xFFFFFFFFFFFFFFFF ≠ (0x72 : BitVec 8).setWidth 64) ∧
    ((0x22, 0xFFFFE000000000FF) ∈ opcodeMasks ∧
      (0x0000180000FF0022 : CommandWord) &&& 0xFFFFE000000000FF = (0x22 : BitVec 8).setWidth 64 ∧
      (0x0000180000FF0022 : CommandWord).extractLsb 44 43 = (3 : BitVec 2)) ∧
    ((0x0000170000FF0022 : CommandWord) &&& 0xFFFFE000000000FF = (0x22 : BitVec 8).setWidth 64 ∧
      (0x0000170000FF0022 : CommandWord).extractLsb 44 43 ≠ (3 : BitVec 2)) := by decide

theorem witness_IllegalWordsFailWithIllegalCommand :
    ([1, 2, 3] : List Byte).length ≤ smallCap.cfg.ibufCap ∧
    ((0x00 : CommandWord).extractLsb 7 0 ∉ opcodeMasks.map Prod.fst) ∧
    ((0x40, 0xFFFFE000000000FF) ∈ opcodeMasks ∧ (0x8000000000000040 : CommandWord).extractLsb 7 0 = (0x40 : BitVec 8) ∧
      (0x8000000000000040 : CommandWord) &&& 0xFFFFE000000000FF ≠ (0x40 : BitVec 8).setWidth 64) ∧
    ((0x00001FFFFFFFFF40 : CommandWord) &&& 0xFFFFE000000000FF = (0x40 : BitVec 8).setWidth 64 ∧
      (0x00001FFFFFFFFF40 : CommandWord).extractLsb 44 43 = (3 : BitVec 2)) ∧
    ((0x000017FFFFFFFF40 : CommandWord) &&& 0xFFFFE000000000FF = (0x40 : BitVec 8).setWidth 64 ∧
      (0x000017FFFFFFFF40 : CommandWord).extractLsb 44 43 ≠ (3 : BitVec 2)) := by decide

/-- The encoding paragraphs of the command rules (`EncodedAs`): a word of each row that matches, with its fields all
ones, and one with the opcode and a reserved bit set; READ_STATE's and PARSE_BUFFER's rows have no field. -/
theorem witness_EncodedAs : (opcodeMasks.map fun row =>
      ((row.1.setWidth 64 ||| (~~~row.2) : CommandWord) &&& row.2 == row.1.setWidth 64 : Bool)) =
        List.replicate 19 true ∧
    (opcodeMasks.map fun row => ((row.1.setWidth 64 ||| (row.2 &&& 0x8000010000000000) : CommandWord) &&& row.2
      == row.1.setWidth 64 || row.2 &&& 0x8000010000000000 == 0 : Bool)) =
        List.map (fun row => row.2 &&& 0x8000010000000000 == (0 : CommandWord)) opcodeMasks := by decide

/-! ## CRC engine -/

theorem witness_CrcComputeFoldsTheBytes :
    (0 = ([] : List Byte).length ∧ 1 ≠ ([] : List Byte).length) ∧
      ∃ t, exec (.crcCompute 0 1) State.reset = .next t ∧ t.status = 6 :=
  ⟨by decide, _, rfl, rfl⟩

theorem witness_CrcComputeCommand :
    ((3 : BitVec 16).toNat = (holding 0 8 [1, 2, 3]).ib.length) ∧ ((4 : BitVec 16).toNat ≠ (holding 0 8 [1, 2, 3]).ib.length) ∧
    (holding 0 8 []).ib = [] ∧
    (holding 0 8 [0x31, 0x32, 0x33, 0x34, 0x35, 0x36, 0x37, 0x38, 0x39]).ib =
      [0x31, 0x32, 0x33, 0x34, 0x35, 0x36, 0x37, 0x38, 0x39] := by decide

theorem witness_CrcChains : crcCompute 0xFFFF ([0x31] : List Byte).length [0x31] = .ok 0xC782 := rfl

theorem witness_CrcResidueIsZero : legalMtu (8 : BitVec 7).toNat = true ∧ presentationMtu 8 < payload8.length ∧
    ∃ fs, multiFrame 5 0 payload8 (presentationMtu 8) (8 : BitVec 7).toNat = .ok fs :=
  ⟨by decide, by decide, _, rfl⟩

/-! ## DLC quantizer -/

theorem witness_LenToDlcIsTheLeastFittingDlc : lenDlc 8 = 8 ∧ lenDlc 9 = 9 ∧ lenDlc 12 = 9 ∧ lenDlc 13 = 10 ∧
    lenDlc 16 = 10 ∧ lenDlc 17 = 11 ∧ lenDlc 20 = 11 ∧ lenDlc 21 = 12 ∧ lenDlc 24 = 12 ∧ lenDlc 25 = 13 ∧
    lenDlc 32 = 13 ∧ lenDlc 33 = 14 ∧ lenDlc 48 = 14 ∧ lenDlc 49 = 15 ∧ lenDlc 64 = 15 := by decide

theorem witness_RoundingGivesTheLeastFrameLength : roundUpFrameLength 65 = .error .invalidFrameSize ∧
    roundUpFrameLength 64 = .ok 64 ∧ roundUpFrameLength 8 = .ok 8 ∧ roundUpFrameLength 9 = .ok 12 ∧
    roundUpFrameLength 48 = .ok 48 ∧ roundUpFrameLength 49 = .ok 64 ∧ dlcLen 15 = 64 :=
  ⟨rfl, rfl, rfl, rfl, rfl, rfl, rfl⟩

theorem witness_DlcToLenCommand : (15 : BitVec 8).toNat ≤ 15 ∧ 15 < (16 : BitVec 8).toNat := by decide

theorem witness_LenToDlcCommand : (64 : BitVec 16).toNat ≤ 64 ∧ 64 < (65 : BitVec 16).toNat := by decide

theorem witness_RoundUpLenCommand : (64 : BitVec 16).toNat ≤ 64 ∧ 64 < (65535 : BitVec 16).toNat := by decide

/-! ## CAN identifiers -/

theorem witness_MessageIdPlacesItsFields :
    ((127 : BitVec 8).toNat ≤ 127 ∧ (8191 : BitVec 16).toNat ≤ 8191) ∧ 127 < (128 : BitVec 8).toNat ∧
      8191 < (8192 : BitVec 16).toNat := by decide

theorem witness_ServiceIdPlacesItsFields :
    ((127 : BitVec 8).toNat ≤ 127 ∧ (511 : BitVec 16).toNat ≤ 511) ∧ 127 < (128 : BitVec 8).toNat ∧
      511 < (512 : BitVec 16).toNat := by decide

theorem witness_CanIdBuilderFollowsItsCases :
    (128 ≤ (128 : BitVec 8).toNat ∧ (8191 : BitVec 16).toNat ≤ 8191 ∧ (127 : BitVec 8).toNat ≤ 127 ∧
      (0 : BitVec 3).toNat * 2 ^ 26 + (0 : BitVec 16).toNat * 2 ^ 8 + (0 : BitVec 8).toNat = 0 ∧
      (0 : BitVec 3).toNat * 2 ^ 26 + (0 : BitVec 16).toNat * 2 ^ 8 + (1 : BitVec 8).toNat ≠ 0) ∧
    payload7.length ≤ presentationMtu 8 ∧ presentationMtu 8 < payload8.length ∧
    ((127 : BitVec 8).toNat ≤ 127 ∧ 8191 < (8192 : BitVec 16).toNat) ∧
    ((511 : BitVec 16).toNat ≤ 511 ∧ 127 < (128 : BitVec 8).toNat ∧ 511 < (512 : BitVec 16).toNat) := by decide

set_option maxRecDepth 20000 in
theorem witness_ZeroIdentifierArisesExactlyOnce :
    makeCanId 0 .message 0 128 [] 0 8 = .error .invalidCanId ∧ (∃ id, makeCanId 0 .request 0 0 [] 0 8 = .ok id) ∧
      ∃ id, makeCanId 0 .message 0 128 payload7 128 8 = .ok id :=
  ⟨rfl, ⟨_, rfl⟩, _, rfl⟩

theorem witness_MakeMessageIdCommand :
    ((127 : BitVec 8).toNat ≤ 127 ∧ (8191 : BitVec 16).toNat ≤ 8191) ∧ 127 < (128 : BitVec 8).toNat ∧
      8191 < (8192 : BitVec 16).toNat := by decide

theorem witness_MakeServiceIdCommand :
    ((127 : BitVec 8).toNat ≤ 127 ∧ (511 : BitVec 16).toNat ≤ 511) ∧ 127 < (128 : BitVec 8).toNat ∧
      511 < (512 : BitVec 16).toNat := by decide

theorem witness_MakeCanIdCommand :
    idAccepted 0 .message 8191 128 (holding 0xFF 8 payload7).ib 128 (holding 0xFF 8 payload7).mtu ∧
    idAccepted 0 .request 511 127 [] 127 8 ∧ idAccepted 7 .response 0 0 [] 0 8 ∧
    (128 ≤ (255 : BitVec 8).toNat ∧ (0 : BitVec 8) = 0 ∧ (0 : BitVec 16) = 0 ∧ (0 : BitVec 3) = 0) ∧
    (¬idAccepted 0 .request 512 127 [] 127 8 ∧ ¬(TransferKind.request = .message)) ∧
    ((0x0000180000FF0022 : CommandWord) &&& 0xFFFFE000000000FF = 0x22 ∧
      (0x0000180000FF0022 : CommandWord).extractLsb 44 43 = (3 : BitVec 2) ∧
      ([1, 2, 3] : List Byte).length ≤ smallCap.cfg.ibufCap) ∧
    (payload7.length = presentationMtu 8 ∧ payload8.length = presentationMtu 8 + 1) ∧
    ((holding 0xFF 8 [1, 2, 3]).mtu = 8 ∧ (holding 0xFF 8 [1, 2, 3]).ib = [1, 2, 3]) :=
  ⟨⟨by decide, by decide, .inr (by decide), by decide⟩, ⟨by decide, by decide, by decide⟩,
    ⟨by decide, by decide, by decide⟩, by decide, ⟨fun h => absurd h.2.1 (by decide), by decide⟩, by decide, by decide,
    by decide⟩

theorem witness_UnpackExtractsTheLayoutFields :
    (0x11FFFFFF : CanId).getLsbD 25 = false ∧ (0x1FFFFFFF : CanId).getLsbD 25 = true ∧
    (∀ j, (0xE00080 : CanId).getLsbD j = true → j = 23 ∨ j = 22 ∨ j = 7 ∨ (j = 21 ∧ SubjectRxMsb.bit20 = .bit20)) ∧
    (∀ j, (0x800000 : CanId).getLsbD j = true → j = 23) := by
  refine ⟨by decide, by decide, fun j h => ?_, fun j h => ?_⟩
  · have hj := BitVec.lt_of_getLsbD h
    revert h; revert j; decide
  · have hj := BitVec.lt_of_getLsbD h
    revert h; revert j; decide

theorem witness_UnpackIdCommand : (0x11FFFFFF : CanId).getLsbD 25 = false ∧ (0x11FFFFFF : CanId).getLsbD 24 = true := by
  decide

set_option maxRecDepth 20000 in
theorem witness_IdentifiersRoundTrip :
    ((∃ id, makeCanId 7 .request 511 127 [] 127 8 = .ok id) ∧ (127 : BitVec 8).toNat ≤ 127) ∧
    ((∃ id, makeCanId 7 .message 8191 255 payload7 128 8 = .ok id) ∧ 128 ≤ (128 : BitVec 8).toNat) :=
  ⟨⟨⟨_, rfl⟩, by decide⟩, ⟨_, rfl⟩, by decide⟩

/-! ## Tail bytes -/

theorem witness_MakeTailCommand : ((false = false ∨ false = true) ∧ (true = false ∨ true = true)) := by decide

theorem witness_TailBytesRoundTrip : (31 : BitVec 8).toNat ≤ 31 ∧ ¬(true = true ∧ true = false) := by decide

/-! ## Fragmenter -/

theorem witness_PresentationMtuIsMtuLessOne : legalMtu (8 : BitVec 7).toNat = true ∧ legalMtu (64 : BitVec 7).toNat = true := by
  decide

theorem witness_SingleFramePathFillsOneFrame :
    (roundUpFrameLength (payload7.length + 1) = .ok 8 ∧ 8 ≤ 8) ∧
    (roundUpFrameLength (payload8.length + 1) = .ok 12 ∧ 11 < 12) ∧ 64 < (zeros 64).length + 1 ∧
    (legalMtu (8 : BitVec 7).toNat = true ∧ payload7.length ≤ presentationMtu 8) :=
  ⟨⟨rfl, by decide⟩, ⟨rfl, by decide⟩, by decide, by decide, by decide⟩

theorem witness_MultiFrameLoopEqualsItsClosedForm :
    (legalMtu (8 : BitVec 7).toNat = true ∧ presentationMtu 8 < payload8.length) ∧ quantize (8 + 1) - 1 - 8 ≠ 0 := by decide

theorem witness_FrameCountFollowsPayloadLength : legalMtu (8 : BitVec 7).toNat = true ∧
    ((∃ fs, createPacket 4 .message 100 0xFF 0 payload7 10 8 = .ok fs) ∧ payload7.length ≤ presentationMtu 8) ∧
    ((∃ fs f, createPacket 4 .message 100 0xFF 0 payload8 10 8 = .ok fs ∧ fs.getLast? = some f) ∧
      presentationMtu 8 < payload8.length) ∧
    (lastShare 13 7 = 1 ∧ lastShare 14 7 = 2 ∧ lastShare 8 7 = 3) ∧ frameCount 8 7 = 2 ∧ frameCount 12 7 = 2 ∧
      frameCount 13 7 = 3 ∧ frameCount 19 7 = 3 :=
  ⟨by decide, ⟨⟨_, rfl⟩, by decide⟩, ⟨⟨_, _, rfl, rfl⟩, by decide⟩, by decide, by decide, by decide, by decide, by decide⟩

theorem witness_TailBytesFollowTheSequenceLaw : legalMtu (8 : BitVec 7).toNat = true ∧
    ∃ fs, createPacket 4 .message 100 0xFF 255 payload8 10 8 = .ok fs ∧ 1 < fs.length :=
  ⟨by decide, _, rfl, by decide⟩

theorem witness_FramesCarryTheTransferInOrder : legalMtu (8 : BitVec 7).toNat = true ∧
    ∃ fs, createPacket 4 .message 100 0xFF 255 payload8 10 8 = .ok fs :=
  ⟨by decide, _, rfl⟩

theorem witness_CreatePacketCommand :
    (legalMtu (holding 127 8 payload7).mtu.toNat = true ∧
      idAccepted 0 .message 8191 128 (holding 127 8 payload7).ib (holding 127 8 payload7).nodeId 8 ∧
      (holding 127 8 payload7).ib.length = presentationMtu 8) ∧
    ((holding 127 8 payload8).ib.length = presentationMtu 8 + 1 ∧ (holding 127 8 []).ib = [] ∧
      idAccepted 0 .request 511 127 (holding 127 8 payload8).ib (holding 127 8 payload8).nodeId 8) ∧
    ¬idAccepted 0 .request 511 128 [] 127 8 ∧
    (idAccepted 0 .request 511 127 (holding 127 10 (zeros 10)).ib (holding 127 10 (zeros 10)).nodeId 10 ∧
      (holding 127 10 (zeros 10)).ib.length ≤ presentationMtu 10 ∧ 10 < quantize (10 + 1)) ∧
    ((0x0000180000FF0040 : CommandWord) &&& 0xFFFFE000000000FF = 0x40 ∧
      (0x0000180000FF0040 : CommandWord).extractLsb 44 43 = (3 : BitVec 2) ∧
      ([1, 2, 3] : List Byte).length ≤ smallCap.cfg.ibufCap) ∧
    (128 ≤ (holding 128 8 payload8).nodeId.toNat ∧ presentationMtu 8 < (holding 128 8 payload8).ib.length) ∧
    ((holding 10 8 [1, 2, 3]).nodeId = 10 ∧ (holding 10 8 [1, 2, 3]).mtu = 8 ∧
      (holding 10 8 [1, 2, 3]).ib = [1, 2, 3]) :=
  ⟨⟨by decide, ⟨by decide, by decide, .inl (by decide), by decide⟩, by decide⟩,
    ⟨by decide, by decide, by decide, by decide, by decide⟩, fun h => absurd h.1 (by decide),
    ⟨⟨by decide, by decide, by decide⟩, by decide, by decide⟩, by decide, by decide, by decide⟩

theorem witness_SendMessageCommand :
    (legalMtu (holding 128 8 payload7).mtu.toNat = true ∧
      idAccepted (holding 128 8 payload7).cfg.prioNominal .message 8191 0xFF (holding 128 8 payload7).ib 128 8 ∧
      128 ≤ (holding 128 8 payload7).nodeId.toNat) ∧
    ¬idAccepted 4 .message 8192 0xFF [] 10 8 ∧
    (idAccepted 4 .message 100 0xFF (holding 10 10 (zeros 10)).ib 10 10 ∧
      (holding 10 10 (zeros 10)).ib.length ≤ presentationMtu 10 ∧ 10 < quantize (10 + 1)) ∧
    (8191 < (8192 : BitVec 16).toNat ∧ 128 ≤ (128 : BitVec 8).toNat ∧ presentationMtu 8 < payload8.length) ∧
    (∃ t, ({ State.reset with tid := 255 } : State).tid.toNat + 1 = tidModulus State.reset.cfg.tidModulus ∧
      exec (.sendMessage 0) { State.reset with tid := 255 } = .next t ∧ t.status = 0) ∧
    ((holding 10 8 [1, 2, 3]).nodeId = 10 ∧ (holding 10 8 [1, 2, 3]).mtu = 8 ∧ (holding 10 8 [1, 2, 3]).tid = 0 ∧
      (holding 10 8 [1, 2, 3]).cfg.prioNominal = 4 ∧ (holding 10 8 [1, 2, 3]).ib = [1, 2, 3]) :=
  ⟨⟨by decide, ⟨by decide, by decide, .inr (by decide), by decide⟩, by decide⟩, fun h => absurd h.2.1 (by decide),
    ⟨⟨by decide, by decide, .inl (by decide), by decide⟩, by decide, by decide⟩, by decide,
    ⟨_, rfl, rfl, by decide⟩, by decide⟩

theorem witness_SendServiceCommands :
    (((TransferKind.request = .request ∧ Instr.sendRequest 127 511 = .sendRequest 127 511) ∧
      TransferKind.response = .response ∧ Instr.sendResponse 127 511 = .sendResponse 127 511) ∧
      legalMtu (holding 127 64 []).mtu.toNat = true ∧ (127 : BitVec 8).toNat ≤ 127 ∧ (511 : BitVec 16).toNat ≤ 511 ∧
      (holding 127 64 []).nodeId.toNat ≤ 127) ∧
    (128 ≤ (128 : BitVec 8).toNat ∧ 511 < (512 : BitVec 16).toNat ∧ 128 ≤ (holding 128 8 []).nodeId.toNat) ∧
    ((holding 127 10 (zeros 10)).nodeId.toNat ≤ 127 ∧ (holding 127 10 (zeros 10)).ib.length ≤ presentationMtu 10 ∧
      10 < quantize (10 + 1)) ∧
    ((∃ a, makeCanId 7 .request 511 127 [] 127 8 = .ok a) ∧ ∃ b, makeCanId 7 .response 511 127 [] 127 8 = .ok b) ∧
    ((holding 42 64 ((List.range 70).map fun j => BitVec.ofNat 8 (j + 1))).nodeId = 42 ∧
      (holding 42 64 ((List.range 70).map fun j => BitVec.ofNat 8 (j + 1))).mtu = 64 ∧
      (holding 42 64 ((List.range 70).map fun j => BitVec.ofNat 8 (j + 1))).tid = 0 ∧
      (holding 42 64 ((List.range 70).map fun j => BitVec.ofNat 8 (j + 1))).cfg.prioNominal = 4 ∧
      (holding 42 64 ((List.range 70).map fun j => BitVec.ofNat 8 (j + 1))).ib =
        (List.range 70).map fun j => BitVec.ofNat 8 (j + 1)) ∧
    ((holding 7 8 []).nodeId = 7 ∧ (holding 7 8 []).mtu = 8 ∧ (holding 7 8 []).tid = 0 ∧
      (holding 7 8 []).cfg.prioNominal = 4 ∧ (holding 7 8 []).ib = []) :=
  ⟨by decide, by decide, by decide, ⟨⟨_, rfl⟩, _, rfl⟩, ⟨rfl, rfl, rfl, rfl, rfl⟩, by decide⟩

theorem witness_CounterModulusShowsOnlyInReadState :
    (isSend (.sendMessage 0) = true ∧ (∃ t, exec (.sendMessage 0) State.reset = .next t ∧ t.status = 0) ∧
      ∃ t, exec (.sendMessage 8192) State.reset = .next t ∧ t.status ≠ 0) ∧
    (SameButCounter (sending { State.reset with tid := 255 })
        (sending { State.reset with tid := 31, cfg := { Config.default with tidModulus := .wrap32 } }) ∧
      (∃ t, step (sending { State.reset with tid := 255 }) = .next t) ∧
      decode 0x0000000001000041 ≠ .command .readState) :=
  ⟨⟨rfl, ⟨_, rfl, by decide⟩, _, rfl, by decide⟩, ⟨rfl, rfl, by decide, rfl, rfl, rfl, rfl⟩, ⟨_, rfl⟩, by decide⟩

/-! ## Frame parser -/

theorem witness_ParseRecordReadsTheRecordFields :
    0 + (8 + 8) ≤ (zeros 16).length ∧ 0 + (8 + 8) ≤ ([0, 0, 0, 0, 0, 0, 9, 0] ++ zeros 8).length ∧
    0 + (8 + 8) ≤ ([0, 0, 0, 0, 0, 0, 0xF8, 0] ++ zeros 8).length ∧
    dlcLen ((byteAt (zeros 16) (0 + 6)).toNat % 16) = 0 ∧
    8 < dlcLen ((byteAt ([0, 0, 0, 0, 0, 0, 9, 0] ++ zeros 8) (0 + 6)).toNat % 16) ∧
    (1 ≤ dlcLen ((byteAt ([0, 0, 0, 0, 0, 0, 0xF8, 0] ++ zeros 8) (0 + 6)).toNat % 16) ∧
      dlcLen ((byteAt ([0, 0, 0, 0, 0, 0, 0xF8, 0] ++ zeros 8) (0 + 6)).toNat % 16) ≤ 8) := by decide

theorem witness_ParseBufferCommand :
    ((holding 10 8 ([0, 0, 0, 0, 0, 0, 8, 0] ++ zeros 8)).ib.length % (8 + 8) = 0 ∧
      ∀ j, j < (holding 10 8 ([0, 0, 0, 0, 0, 0, 8, 0] ++ zeros 8)).ib.length / (8 + 8) →
        1 ≤ dlcLen ((byteAt (holding 10 8 ([0, 0, 0, 0, 0, 0, 8, 0] ++ zeros 8)).ib (j * (8 + 8) + 6)).toNat % 16) ∧
        dlcLen ((byteAt (holding 10 8 ([0, 0, 0, 0, 0, 0, 8, 0] ++ zeros 8)).ib (j * (8 + 8) + 6)).toNat % 16) ≤ 8) ∧
    (holding 10 8 (zeros 15)).ib.length % (8 + 8) ≠ 0 ∧
    (0 < (holding 10 8 (zeros 16)).ib.length / (8 + 8) ∧
      dlcLen ((byteAt (holding 10 8 (zeros 16)).ib (0 * (8 + 8) + 6)).toNat % 16) = 0) ∧
    8 < dlcLen ((byteAt (holding 10 8 ([0, 0, 0, 0, 0, 0, 9, 0] ++ zeros 8)).ib (0 * (8 + 8) + 6)).toNat % 16) ∧
    (holding 10 8 []).ib = [] ∧
    (holding 10 8 [0x0A, 0x64, 0x00, 0x10, 0, 0, 4, 0, 1, 2, 3, 0xE0, 0, 0, 0, 0]).ib =
      [0x0A, 0x64, 0x00, 0x10, 0, 0, 4, 0, 1, 2, 3, 0xE0, 0, 0, 0, 0] := by decide

/-- The clause of ParseBufferCommand about ignored bits: two one-record inputs that differ in ignored bits only. -/
theorem witness_ParseBufferCommand_ignored :
    ∀ j, j < 3 ∨ 8 ≤ j → byteAt ([0, 0, 0, 0xE0, 1, 2, 0xF1, 3] ++ zeros 8) j =
      byteAt ([0, 0, 0, 0, 0, 0, 1, 0] ++ zeros 8) j := by
  intro j hj
  rcases Nat.lt_or_ge j 16 with h | h
  · revert hj; revert j; decide
  · simp only [byteAt, List.getD_eq_getElem?_getD]
    rw [List.getElem?_eq_none (by simp [zeros]; omega), List.getElem?_eq_none (by simp [zeros]; omega)]

theorem witness_ParseBufferCommand_ignored_bits :
    (0xE0 : Byte).extractLsb 4 0 = (0 : Byte).extractLsb 4 0 ∧ (0xF1 : Byte).extractLsb 3 0 = (1 : Byte).extractLsb 3 0 := by
  decide

theorem witness_RecordsParseIndependently :
    (zeros 16).length % (8 + 8) = 0 ∧
    (∃ ra, parseBuffer .bit21 ([0x0A, 0x64, 0, 0x10, 0, 0, 1, 0] ++ zeros 8) 8 = .ok ra) ∧
    parseBuffer .bit21 (zeros 16) 8 = .error .invalidFrameLength ∧
    parseBuffer .bit21 (zeros 15) 8 = .error .invalidFrameLength :=
  ⟨by decide, ⟨_, rfl⟩, rfl, rfl⟩

theorem witness_CreatedFramesParseBack : legalMtu (8 : BitVec 7).toNat = true ∧
    ∃ fs, createPacket 4 .message 100 0xFF 255 payload8 10 8 = .ok fs ∧ 0 < fs.length :=
  ⟨by decide, _, rfl, by decide⟩

/-! ## Control -/

theorem witness_InitCommand : (64 : BitVec 16).toNat ∈ [8, 12, 16, 20, 24, 32, 48, 64] ∧
    (65 : BitVec 16).toNat ∉ [8, 12, 16, 20, 24, 32, 48, 64] := by decide

theorem witness_SetNodeIdCommand : 128 ≤ (128 : BitVec 8).toNat ∧ ∃ t, exec (.setNodeId 128) State.reset = .next t ∧
    ∃ u, exec (.sendMessage 100) t = .next u ∧ u.status = 0 :=
  ⟨by decide, _, rfl, _, rfl, by decide⟩

theorem witness_ReadStateCommand :
    ({ State.reset with nodeId := 10, tid := 2 } : State).nodeId = 10 ∧
      ({ State.reset with nodeId := 10, tid := 2 } : State).mtu = 8 := by decide

end Sys2Proof.Tests
end

namespace Sys2Proof.Machine

/-- Settles O1, by evaluation: `State.reset` gives each register of 10_state.md R33 as a literal, so each clause reads
one field. -/
theorem resetLeavesTheValuesOfTheRule : Obligations.ResetLeavesTheValuesOfTheRule := by
  unfold Obligations.ResetLeavesTheValuesOfTheRule
  exact ⟨rfl, rfl, rfl, rfl, rfl, rfl⟩

end Sys2Proof.Machine

namespace Sys2Proof.Machine

/-! ## Decoding by the rows of the opcode map (30_encoding.md R83 to R85, R88)

The statements speak of the table `opcodeMasks`, the decoder of `opcodeRow`: the first three lemmas carry a row of the
one to the other, and after them each outcome of `decode` has its condition in the terms of the statements. -/

/-- An opcode that R82 does not list has no row in the decoder's map (R84). -/
theorem opcodeRow_eq_none_of_not_mem {o : BitVec 8} (h : o ∉ opcodeMasks.map Prod.fst) : opcodeRow o = none := by
  cases hr : opcodeRow o with
  | none => rfl
  | some r =>
    obtain ⟨-, hmem, -⟩ := opcodeRow_mem hr
    exact absurd (List.mem_map_of_mem hmem) h

/-- A row of the table is a row of the decoder's map, with the same mask and the opcode as its `match` column (R82, R83). -/
theorem exists_opcodeRow_of_mem {row : BitVec 8 × CommandWord} (h : row ∈ opcodeMasks) :
    ∃ r, opcodeRow row.1 = some r ∧ r.mask = row.2 ∧ r.pattern = row.1.setWidth 64 := by
  have masks_agree : ∀ row ∈ opcodeMasks, (opcodeRow row.1).map OpcodeRow.mask = some row.2 :=
    List.map_inj_left.mp rfl
  obtain ⟨r, hr, hmask⟩ := Option.map_eq_some_iff.mp (masks_agree row h)
  obtain ⟨-, -, hpattern⟩ := opcodeRow_mem hr
  exact ⟨r, hr, hmask, hpattern⟩

/-- A word that meets a row's mask and match has the row's opcode, since every mask covers OPC (R83). -/
theorem fieldOpc_of_mem_opcodeMasks {row : BitVec 8 × CommandWord} (h : row ∈ opcodeMasks) {w : CommandWord}
    (hw : w &&& row.2 = row.1.setWidth 64) : fieldOpc w = row.1 := by
  have masks_cover_opc : ∀ row ∈ opcodeMasks, fieldOpc row.2 = 0xFF := List.map_inj_left.mp rfl
  have opc_of_match : fieldOpc (row.1.setWidth 64) = row.1 := by
    simp [fieldOpc, ← BitVec.setWidth_eq_extractLsb']
  rw [fieldOpc_of_masked (masks_cover_opc row h) hw, opc_of_match]

/-- What a row builds is well formed unless the row is MAKE_CAN_ID's or CREATE_PACKET's and the word's KIND is 3
(R85). -/
theorem build_wellFormed_iff {o : BitVec 8} {r : OpcodeRow} (h : opcodeRow o = some r) (w : CommandWord) :
    (r.build w).wellFormed = true ↔ ((o = 0x22 ∨ o = 0x40) → w.extractLsb 44 43 ≠ 3) := by
  have legalKind_iff : legalKind (fieldKind w) = true ↔ w.extractLsb 44 43 ≠ 3 := bne_iff_ne
  unfold opcodeRow at h
  split at h <;> cases h <;> simp [Instr.wellFormed, legalKind_iff]

/-- R84: a reserved opcode is rejected. -/
theorem decode_reservedOpcode {w : CommandWord} (h : w.extractLsb 7 0 ∉ opcodeMasks.map Prod.fst) :
    decode w = .rejected .reservedOpcode := by
  have hnone : opcodeRow (fieldOpc w) = none := opcodeRow_eq_none_of_not_mem h
  rw [decode, hnone]

/-- R83, R88: a reserved bit of a listed opcode is rejected before KIND is looked at. -/
theorem decode_reservedBits {row : BitVec 8 × CommandWord} (h : row ∈ opcodeMasks) {w : CommandWord}
    (hopc : w.extractLsb 7 0 = row.1) (hw : w &&& row.2 ≠ row.1.setWidth 64) :
    decode w = .rejected .reservedBits := by
  obtain ⟨r, hr, hmask, hpattern⟩ := exists_opcodeRow_of_mem h
  have hrow : opcodeRow (fieldOpc w) = some r := (congrArg opcodeRow hopc).trans hr
  rw [decode_of_row hrow, hmask, hpattern, if_neg hw]

/-- R83, R85: on a word that meets a row's mask and match, only the KIND check is left. -/
theorem decode_of_matches {row : BitVec 8 × CommandWord} (h : row ∈ opcodeMasks) {w : CommandWord}
    (hw : w &&& row.2 = row.1.setWidth 64) :
    ∃ r, opcodeRow row.1 = some r ∧
      decode w = if (r.build w).wellFormed then .command (r.build w) else .rejected .reservedKind := by
  obtain ⟨r, hr, hmask, hpattern⟩ := exists_opcodeRow_of_mem h
  have hrow : opcodeRow (fieldOpc w) = some r := by rw [fieldOpc_of_mem_opcodeMasks h hw, hr]
  exact ⟨r, hr, by rw [decode_of_row hrow, hmask, hpattern, if_pos hw]⟩

/-- R85: KIND = 3 in MAKE_CAN_ID or CREATE_PACKET is rejected. -/
theorem decode_reservedKind {row : BitVec 8 × CommandWord} (h : row ∈ opcodeMasks) {w : CommandWord}
    (hw : w &&& row.2 = row.1.setWidth 64) (hopc : row.1 = 0x22 ∨ row.1 = 0x40) (hkind : w.extractLsb 44 43 = 3) :
    decode w = .rejected .reservedKind := by
  obtain ⟨r, hr, hdecode⟩ := decode_of_matches h hw
  have hwf : ¬(r.build w).wellFormed = true := fun hb => (build_wellFormed_iff hr w).mp hb hopc hkind
  rw [hdecode, if_neg hwf]

/-- R88: a word that passes all three checks is a well-formed command. -/
theorem decode_wellFormed_command {row : BitVec 8 × CommandWord} (h : row ∈ opcodeMasks) {w : CommandWord}
    (hw : w &&& row.2 = row.1.setWidth 64) (hkind : (row.1 = 0x22 ∨ row.1 = 0x40) → w.extractLsb 44 43 ≠ 3) :
    ∃ i, decode w = .command i ∧ i.wellFormed = true := by
  obtain ⟨r, hr, hdecode⟩ := decode_of_matches h hw
  have hwf : (r.build w).wellFormed = true := (build_wellFormed_iff hr w).mpr hkind
  exact ⟨r.build w, by rw [hdecode, if_pos hwf], hwf⟩

/-- A step on an admitted word the decoder rejects, register by register: IllegalCommand, code 7, with the effects of an
error (60_exceptions.md R261 to R263). -/
theorem step_issue_rejected {s : State} {w : CommandWord} {ib : List Byte} {why : DecodeError}
    (hl : ib.length ≤ s.cfg.ibufCap) (hd : decode w = .rejected why) :
    step (s.issue w ib) = .next { s with status := 7, res := 0, out := [] } :=
  step_rejected (s.issue_port w ib) hl hd

/-- Settles O17: each clause is the lemma of the decoder's outcome it names. -/
theorem decodeChecksInOrder : Obligations.DecodeChecksInOrder := by
  unfold Obligations.DecodeChecksInOrder
  refine ⟨?reservedOpcode, ?reservedBits, ?reservedKind, ?command⟩
  case reservedOpcode => exact fun _ hopc => decode_reservedOpcode hopc
  case reservedBits => exact fun _ hrow _ hopc hw => decode_reservedBits hrow hopc hw
  case reservedKind => exact fun _ hrow _ hw hopc hkind => decode_reservedKind hrow hw hopc hkind
  case command => exact fun _ hrow _ hw hkind => decode_wellFormed_command hrow hw hkind

/-- Settles O18: each illegal word is rejected by the decoder, and a step on a rejected word is `step_issue_rejected`. -/
theorem illegalWordsFailWithIllegalCommand : Obligations.IllegalWordsFailWithIllegalCommand := by
  unfold Obligations.IllegalWordsFailWithIllegalCommand
  refine ⟨?reservedOpcode, ?reservedBits, ?reservedKind, ?command⟩
  case reservedOpcode =>
    exact fun _ _ _ hl hopc => step_issue_rejected hl (decode_reservedOpcode hopc)
  case reservedBits =>
    exact fun _ hrow _ _ _ hl hopc hw => step_issue_rejected hl (decode_reservedBits hrow hopc hw)
  case reservedKind =>
    exact fun _ hrow _ _ _ hl hopc hw hkind => step_issue_rejected hl (decode_reservedKind hrow hw hopc hkind)
  case command =>
    intro _ hrow _ hw hkind
    obtain ⟨i, hdecode, -⟩ := decode_wellFormed_command hrow hw hkind
    exact ⟨i, hdecode⟩

end Sys2Proof.Machine

namespace Sys2Proof.Machine

/-! ## Which errors each function can raise (60_exceptions.md R260, R261)

One lemma per function that can fail: the error kinds it can answer. -/

theorem except_map_eq_error_iff {ε α β : Type} {f : α → β} {r : Except ε α} {e : ε} :
    r.map f = .error e ↔ r = .error e := by
  cases r <;> simp [Except.map]

theorem crcCompute_error {c : CrcState} {d : Nat} {data : List Byte} {e : ErrorKind}
    (h : crcCompute c d data = .error e) : e = .lengthMismatch := by
  unfold crcCompute at h
  split at h <;> cases h
  rfl

theorem lookUpLen_error {dlc : BitVec 8} {e : ErrorKind} (h : lookUpLen dlc = .error e) : e = .invalidFrameSize := by
  unfold lookUpLen at h
  split at h <;> cases h
  rfl

theorem lookUpDlc_error {n : BitVec 16} {e : ErrorKind} (h : lookUpDlc n = .error e) : e = .invalidFrameSize := by
  unfold lookUpDlc at h
  split at h <;> cases h
  rfl

theorem roundUpFrameLength_error {n : Nat} {e : ErrorKind} (h : roundUpFrameLength n = .error e) :
    e = .invalidFrameSize := by
  unfold roundUpFrameLength at h
  split at h <;> cases h
  rfl

theorem makeMessageId_error {subject : BitVec 16} {src : BitVec 8} {e : ErrorKind}
    (h : makeMessageId subject src = .error e) : e = .invalidArgument := by
  unfold makeMessageId at h
  split at h <;> cases h
  rfl

theorem makeServiceId_error {service : BitVec 16} {isRequest : Bool} {src dst : BitVec 8} {e : ErrorKind}
    (h : makeServiceId service isRequest src dst = .error e) : e = .invalidArgument := by
  unfold makeServiceId at h
  split at h <;> cases h
  rfl

theorem messageCanId_error {portId : BitVec 16} {payload : List Byte} {localNode : BitVec 8} {mtu : BitVec 7}
    {e : ErrorKind} (h : messageCanId portId payload localNode mtu = .error e) : e = .invalidArgument := by
  unfold messageCanId at h
  split at h
  case isTrue => exact makeMessageId_error h
  case isFalse =>
    split at h
    case isTrue => exact makeMessageId_error (except_map_eq_error_iff.mp h)
    case isFalse => cases h; rfl

theorem serviceCanId_error {isRequest : Bool} {portId : BitVec 16} {remoteNode localNode : BitVec 8} {e : ErrorKind}
    (h : serviceCanId isRequest portId remoteNode localNode = .error e) : e = .invalidArgument := by
  unfold serviceCanId at h
  split at h
  case isTrue => exact makeServiceId_error h
  case isFalse => cases h; rfl

theorem baseCanId_error {kind : TransferKind} {portId : BitVec 16} {remoteNode : BitVec 8} {payload : List Byte}
    {localNode : BitVec 8} {mtu : BitVec 7} {e : ErrorKind}
    (h : baseCanId kind portId remoteNode payload localNode mtu = .error e) : e = .invalidArgument := by
  cases kind <;> simp only [baseCanId] at h <;> split at h
  case message.isTrue => exact messageCanId_error h
  case request.isTrue => exact serviceCanId_error h
  case response.isTrue => exact serviceCanId_error h
  all_goals cases h; rfl

theorem withPriority_error {priority : BitVec 3} {id : CanId} {e : ErrorKind}
    (h : withPriority priority id = .error e) : e = .invalidCanId := by
  simp only [withPriority] at h
  split at h <;> cases h
  rfl

theorem makeCanId_error {priority : BitVec 3} {kind : TransferKind} {portId : BitVec 16} {remoteNode : BitVec 8}
    {payload : List Byte} {localNode : BitVec 8} {mtu : BitVec 7} {e : ErrorKind}
    (h : makeCanId priority kind portId remoteNode payload localNode mtu = .error e) :
    e = .invalidArgument ∨ e = .invalidCanId := by
  unfold makeCanId at h
  split at h
  case h_1 hbase => cases h; exact .inl (baseCanId_error hbase)
  case h_2 => exact .inr (withPriority_error h)

theorem makeTailByte_error {startBit endBit toggle : Bool} {tid : BitVec 8} {e : ErrorKind}
    (h : makeTailByte startBit endBit toggle tid = .error e) : e = .invalidState := by
  unfold makeTailByte at h
  split at h <;> cases h
  rfl

/-- `make_tail_byte` answers a byte for every start bit that comes with the initial toggle (43_tail_byte.md R170). -/
theorem exists_makeTailByte_eq_ok {startBit toggle : Bool} (h : startBit = true → toggle = true) (endBit : Bool)
    (tid : BitVec 8) : ∃ t, makeTailByte startBit endBit toggle tid = .ok t := by
  obtain ⟨hstart, htoggle, -⟩ | ⟨-, hok⟩ := makeTailByte_cases startBit endBit toggle tid
  · rw [h hstart] at htoggle; cases htoggle
  · exact ⟨_, hok⟩

theorem singleFrame_error {xid : CanId} {tid : BitVec 8} {payload : List Byte} {mtu : Nat} {e : ErrorKind}
    (h : singleFrame xid tid payload mtu = .error e) : e = .invalidFrameSize := by
  obtain ⟨t, ht⟩ := exists_makeTailByte_eq_ok (startBit := true) (toggle := initialToggle) (fun _ => rfl) true tid
  unfold singleFrame at h
  split at h
  case h_1 hround => cases h; exact roundUpFrameLength_error hround
  case h_2 =>
    split at h
    case isTrue => cases h; rfl
    case isFalse => rw [ht] at h; cases h

/-- The loop of `multi_frame` never fails: only its first round sets the start bit, and that round's toggle is the
initial one (44_fragmenter.md R183). -/
theorem exists_multiFrameLoop_eq_ok (xid : CanId) (tid : BitVec 8) (payload : List Byte) (p mtu fuel : Nat)
    {first toggle : Bool} (htoggle : first = true → toggle = true) (off : Nat) (c : CrcState) :
    ∃ fs, multiFrameLoop xid tid payload p mtu fuel first toggle off c = .ok fs := by
  induction fuel generalizing first toggle off c with
  | zero => exact ⟨[], rfl⟩
  | succ fuel ih =>
    by_cases hoff : off < payload.length + 2
    · obtain ⟨t, ht⟩ := exists_makeTailByte_eq_ok htoggle _ tid
      rw [multiFrameLoop_round hoff ht]
      obtain ⟨rest, hrest⟩ := ih (first := false) (by simp) _ _
      rw [hrest]
      exact ⟨_, rfl⟩
    · exact ⟨[], multiFrameLoop_done _ _ _ _ _ _ _ _ _ _ (by omega)⟩

theorem createPacket_error {priority : BitVec 3} {kind : TransferKind} {portId : BitVec 16} {remoteNode tid : BitVec 8}
    {payload : List Byte} {localNode : BitVec 8} {mtu : BitVec 7} {e : ErrorKind}
    (h : createPacket priority kind portId remoteNode tid payload localNode mtu = .error e) :
    e = .invalidFrameSize ∨ e = .invalidCanId := by
  unfold createPacket at h
  split at h
  case h_1 => cases h; exact .inr rfl
  case h_2 xid _ =>
    split at h
    case isTrue => exact .inl (singleFrame_error h)
    case isFalse =>
      obtain ⟨fs, hfs⟩ := exists_multiFrameLoop_eq_ok xid tid payload (presentationMtu mtu) mtu.toNat
        (payload.length + crcSize) (first := true) (toggle := initialToggle) (fun _ => rfl) 0 (crc16 payload)
      rw [multiFrame, hfs] at h
      cases h

theorem parseBuffer_error {msb : SubjectRxMsb} {ib : List Byte} {mtu : Nat} {e : ErrorKind}
    (h : parseBuffer msb ib mtu = .error e) : e = .invalidFrameLength := by
  unfold parseBuffer at h
  split at h
  case isTrue => exact parseRecords_error h
  case isFalse => cases h; rfl

/-! ## Which codes each ending of a command can write to STATUS -/

theorem State.finish_status_mem (s : State) {r : Except ErrorKind (BitVec 64)} {es : List ErrorKind}
    (herr : ∀ e, r = .error e → e ∈ es) : (s.finish r).status ∈ 0 :: es.map errorCode := by
  obtain ⟨v, -, hs⟩ | ⟨e, hr, hs⟩ := s.finish_cases r
  · rw [hs]; exact List.mem_cons_self
  · rw [hs]; exact List.mem_cons_of_mem _ (List.mem_map_of_mem (herr e hr))

theorem State.finishFrames_status_mem (s : State) {r : Except ErrorKind (List OutboundFrame)} {es : List ErrorKind}
    (herr : ∀ e, r = .error e → e ∈ es) : (s.finishFrames r).status ∈ 0 :: es.map errorCode := by
  obtain ⟨fr, -, hs⟩ | ⟨e, hr, hs⟩ := s.finishFrames_cases r
  · rw [hs]; exact List.mem_cons_self
  · rw [hs]; exact List.mem_cons_of_mem _ (List.mem_map_of_mem (herr e hr))

theorem State.finishRecords_status_mem (s : State) {r : Except ErrorKind (List InboundFrame)} {es : List ErrorKind}
    (herr : ∀ e, r = .error e → e ∈ es) : (s.finishRecords r).status ∈ 0 :: es.map errorCode := by
  obtain ⟨recs, -, hs⟩ | ⟨e, hr, hs⟩ := s.finishRecords_cases r
  · rw [hs]; exact List.mem_cons_self
  · rw [hs]; exact List.mem_cons_of_mem _ (List.mem_map_of_mem (herr e hr))

theorem State.sendTransfer_status_mem (s : State) (k : TransferKind) (portId : BitVec 16) (remote : BitVec 8) :
    (s.sendTransfer k portId remote).status ∈ 0 :: [ErrorKind.invalidFrameSize, .invalidCanId].map errorCode := by
  obtain ⟨fr, -, hs⟩ | ⟨e, he, hs⟩ := s.sendTransfer_cases k portId remote
  · rw [hs]; exact List.mem_cons_self
  · have hmem : e ∈ [ErrorKind.invalidFrameSize, .invalidCanId] := by simpa using createPacket_error he
    rw [hs]; exact List.mem_cons_of_mem _ (List.mem_map_of_mem hmem)

/-! ## The codes of a command's row (60_exceptions.md R261)

The three commands whose `exec` arm branches by itself come first; every other command is one of the endings above. -/

theorem execInit_status_mem {node : BitVec 8} {mtu : BitVec 16} {s t : State} (h : execInit node mtu s = .next t) :
    t.status ∈ allowedCodes (.init node mtu) := by
  unfold execInit at h
  split at h <;> cases h
  case isTrue => exact List.mem_cons_self
  case isFalse => exact List.mem_cons_of_mem _ List.mem_cons_self

theorem execMakeCanId_status_mem {localNode remoteNode : BitVec 8} {portId : BitVec 16} {priority : BitVec 3}
    {kind : BitVec 2} {s t : State} (h : execMakeCanId localNode remoteNode portId priority kind s = .next t) :
    t.status ∈ allowedCodes (.makeCanId localNode remoteNode portId priority kind) := by
  unfold execMakeCanId at h
  split at h <;> cases h
  case h_1 => exact List.mem_of_getElem? (i := 3) rfl
  case h_2 =>
    refine s.finish_status_mem (es := [.invalidArgument, .invalidCanId, .illegalCommand]) fun e he => ?_
    obtain rfl | rfl := makeCanId_error (except_map_eq_error_iff.mp he) <;> decide

theorem execCreatePacket_status_mem {tid remoteNode : BitVec 8} {portId : BitVec 16} {priority : BitVec 3}
    {kind : BitVec 2} {s t : State} (h : execCreatePacket tid remoteNode portId priority kind s = .next t) :
    t.status ∈ allowedCodes (.createPacket tid remoteNode portId priority kind) := by
  unfold execCreatePacket at h
  split at h <;> cases h
  case h_1 => exact List.mem_of_getElem? (i := 3) rfl
  case h_2 =>
    refine s.finishFrames_status_mem (es := [.invalidFrameSize, .invalidCanId, .illegalCommand]) fun e he => ?_
    obtain rfl | rfl := createPacket_error he <;> decide

/-- A command writes to STATUS only 0 or a code of its row in the table of R261. -/
theorem exec_status_mem_allowedCodes {i : Instr} {s t : State} (h : exec i s = .next t) :
    t.status ∈ allowedCodes i := by
  cases i with
  | makeCanId => exact execMakeCanId_status_mem h
  | createPacket => exact execCreatePacket_status_mem h
  | init => exact execInit_status_mem h
  | crcUpdate | decodeTail | unpackId | setNodeId | readState => cases h; exact List.mem_cons_self
  | sendMessage | sendRequest | sendResponse => cases h; exact s.sendTransfer_status_mem _ _ _
  | parseBuffer =>
    cases h
    exact s.finishRecords_status_mem fun _ he => List.mem_singleton.mpr (parseBuffer_error he)
  | crcCompute =>
    cases h
    exact s.finish_status_mem fun _ he =>
      List.mem_singleton.mpr (crcCompute_error (except_map_eq_error_iff.mp he))
  | dlcToLen => cases h; exact s.finish_status_mem fun _ he => List.mem_singleton.mpr (lookUpLen_error he)
  | lenToDlc => cases h; exact s.finish_status_mem fun _ he => List.mem_singleton.mpr (lookUpDlc_error he)
  | roundUpLen =>
    cases h
    exact s.finish_status_mem fun _ he =>
      List.mem_singleton.mpr (roundUpFrameLength_error (except_map_eq_error_iff.mp he))
  | makeMessageId =>
    cases h
    exact s.finish_status_mem fun _ he =>
      List.mem_singleton.mpr (makeMessageId_error (except_map_eq_error_iff.mp he))
  | makeServiceId =>
    cases h
    exact s.finish_status_mem fun _ he =>
      List.mem_singleton.mpr (makeServiceId_error (except_map_eq_error_iff.mp he))
  | makeTail =>
    cases h
    exact s.finish_status_mem fun _ he =>
      List.mem_singleton.mpr (makeTailByte_error (except_map_eq_error_iff.mp he))

/-- LengthMismatch, code 6, stands in the row of CRC_COMPUTE alone (60_exceptions.md R261, 40_crc.md R122). -/
theorem eq_crcCompute_of_lengthMismatch_allowed {i : Instr} (h : 6 ∈ allowedCodes i) : ∃ c d, i = .crcCompute c d := by
  cases i with
  | crcCompute c d => exact ⟨c, d, rfl⟩
  | _ => exact absurd h (by simp only [allowedCodes]; decide)

end Sys2Proof.Machine

namespace Sys2Proof.Machine

/-! ## The CRC engine (40_crc.md) -/

/-- A single-bit step as R120 writes it: the mask `& 0xFFFF` keeps all 16 bits of the shifted state. -/
theorem crcBit_eq_masked_shift (c : CrcState) :
    crcBit c = if c.getLsbD 15 = true then ((c <<< 1) &&& 0xFFFF) ^^^ 0x1021 else (c <<< 1) &&& 0xFFFF := by
  have mask_keeps : (c <<< 1) &&& (0xFFFF : BitVec 16) = c <<< 1 := BitVec.and_allOnes
  rw [mask_keeps, crcBit]

theorem crcBits_eq_iterate (n : Nat) (c : CrcState) : crcBits c n = crcBit^[n] c := by
  induction n generalizing c with
  | zero => rfl
  | succ n ih => exact ih (crcBit c)

/-- The right declared length gives the left fold of the bytes (R122). -/
theorem crcCompute_of_length_eq {c : CrcState} {d : Nat} {data : List Byte} (h : d = data.length) :
    crcCompute c d data = .ok (data.foldl crcUpdate c) := by
  rw [crcCompute, if_pos h, crcFold_eq_foldl]

/-- A wrong declared length is LengthMismatch (R122). -/
theorem crcCompute_of_length_ne {c : CrcState} {d : Nat} {data : List Byte} (h : d ≠ data.length) :
    crcCompute c d data = .error .lengthMismatch := by
  rw [crcCompute, if_neg h]

theorem exec_crcUpdate (byte : BitVec 8) (crc : BitVec 16) (s : State) :
    exec (.crcUpdate byte crc) s = .next (s.succeed ((crcUpdate crc byte).setWidth 64) []) := rfl

theorem exec_crcCompute (initial declared : BitVec 16) (s : State) :
    exec (.crcCompute initial declared) s =
      .next (s.finish ((crcCompute initial declared.toNat s.ib).map (·.setWidth 64))) := rfl

/-- CRC_COMPUTE with the right declared length (R123). -/
theorem exec_crcCompute_of_length_eq (initial : BitVec 16) {declared : BitVec 16} {s : State}
    (h : declared.toNat = s.ib.length) :
    exec (.crcCompute initial declared) s = .next (s.succeed ((s.ib.foldl crcUpdate initial).setWidth 64) []) := by
  rw [exec_crcCompute, crcCompute_of_length_eq h]
  rfl

/-- CRC_COMPUTE with a wrong declared length (R123). -/
theorem exec_crcCompute_of_length_ne (initial : BitVec 16) {declared : BitVec 16} {s : State}
    (h : declared.toNat ≠ s.ib.length) :
    exec (.crcCompute initial declared) s = .next (s.fail .lengthMismatch) := by
  rw [exec_crcCompute, crcCompute_of_length_ne h]
  rfl

/-- The encoding paragraph of a command rule holds of every row of the decoder's map (30_encoding.md R82, R83). -/
theorem encodedAs_of_opcodeRow {o : BitVec 8} {r : OpcodeRow} (h : opcodeRow o = some r) :
    EncodedAs r.pattern r.mask r.build := by
  obtain ⟨-, hmem, hpattern⟩ := opcodeRow_mem h
  have opc_of_pattern : r.pattern.extractLsb 7 0 = o := by
    rw [hpattern]
    simp [BitVec.extractLsb, ← BitVec.setWidth_eq_extractLsb']
  refine ⟨fun w hw hwf => ?decodes, fun w s ib hopc hw hl => ?rejected⟩
  case decodes =>
    have hrow : opcodeRow (fieldOpc w) = some r := by
      rw [fieldOpc_of_mem_opcodeMasks hmem (hw.trans hpattern), h]
    rw [decode_of_row hrow, if_pos hw, if_pos hwf]
  case rejected =>
    exact step_issue_rejected hl
      (decode_reservedBits hmem (hopc.trans opc_of_pattern) fun hw' => hw (hw'.trans hpattern.symm))

/-- The CRC of the digits "123456789" (R123's example), by running the 72 single-bit steps. -/
theorem foldl_crcUpdate_digits :
    ([0x31, 0x32, 0x33, 0x34, 0x35, 0x36, 0x37, 0x38, 0x39] : List Byte).foldl crcUpdate 0xFFFF = 0x29B1 := by
  simp [crcUpdate, crcBits, crcBit]

/-- Settles O19: the model's recursion is an eight-fold iterate of the single-bit step, and that step is the rule's. -/
theorem crcUpdateIsEightBitSteps : Obligations.CrcUpdateIsEightBitSteps := by
  unfold Obligations.CrcUpdateIsEightBitSteps
  intro c b
  rw [crcUpdate, crcBits_eq_iterate, funext crcBit_eq_masked_shift]

/-- Settles O20: the command's one outcome, its row of the opcode map, and the rule's values by evaluation. -/
theorem crcUpdateCommand : Obligations.CrcUpdateCommand := by
  unfold Obligations.CrcUpdateCommand
  refine ⟨exec_crcUpdate, encodedAs_of_opcodeRow (o := 0x01) rfl, by decide, by decide, by decide, fun s => ?sample⟩
  case sample =>
    have value : crcUpdate 0xFFFF 0x31 = 0xC782 := by decide
    rw [exec_crcUpdate, value]
    rfl

/-- Settles O21: the two cases of `crc_compute`, and the codes of each command's row, of which only CRC_COMPUTE's holds
code 6. -/
theorem crcComputeFoldsTheBytes : Obligations.CrcComputeFoldsTheBytes := by
  unfold Obligations.CrcComputeFoldsTheBytes
  refine ⟨fun c d data => ⟨crcCompute_of_length_eq, crcCompute_of_length_ne⟩, fun data => ?total, ?onlyCrcCompute⟩
  case total => rw [crcCompute_of_length_eq rfl, crc16, crcFold_eq_foldl]
  case onlyCrcCompute =>
    intro i s t h h6
    have hcode : t.status ∈ allowedCodes i := exec_status_mem_allowedCodes h
    rw [h6] at hcode
    exact eq_crcCompute_of_lengthMismatch_allowed hcode

/-- Settles O22: the two outcomes of the command by its declared length and its row of the opcode map; the empty input and
the rule's example are cases of the right length. -/
theorem crcComputeCommand : Obligations.CrcComputeCommand := by
  unfold Obligations.CrcComputeCommand
  refine ⟨fun initial _ _ h => exec_crcCompute_of_length_eq initial h,
    fun initial _ _ h => exec_crcCompute_of_length_ne initial h, encodedAs_of_opcodeRow (o := 0x02) rfl,
    fun initial s hib => ?empty, fun _ _ _ => List.foldl_append, fun s hib => ?sample⟩
  case empty =>
    have hlen : (0 : BitVec 16).toNat = s.ib.length := by rw [hib]; rfl
    rw [exec_crcCompute_of_length_eq initial hlen, hib]
    rfl
  case sample =>
    have hlen : (9 : BitVec 16).toNat = s.ib.length := by rw [hib]; rfl
    rw [exec_crcCompute_of_length_eq 0xFFFF hlen, hib, foldl_crcUpdate_digits]
    rfl

end Sys2Proof.Machine

namespace Sys2Proof.Machine

/-! ## The DLC quantizer (41_dlc.md)

One equation per case of each look-up, and from it the command's outcome in that case. -/

/-- No DLC below `LEN_TO_DLC[n]` is long enough for n bytes (R131). -/
theorem dlcLen_lt_of_lt_lenDlc {n d : Nat} (hn : n ≤ 64) (hd : d < lenDlc n) : dlcLen d < n := by
  have table : ∀ n < 65, ∀ d < lenDlc n, dlcLen d < n := by decide
  exact table n (by omega) d hd

theorem lookUpLen_of_le {dlc : BitVec 8} (h : dlc.toNat ≤ 15) :
    lookUpLen dlc = .ok (BitVec.ofNat 64 (dlcLen dlc.toNat)) := by
  rw [lookUpLen, if_neg (Nat.not_lt.mpr h)]

theorem lookUpLen_of_gt {dlc : BitVec 8} (h : 15 < dlc.toNat) : lookUpLen dlc = .error .invalidFrameSize := by
  rw [lookUpLen, if_pos h]

theorem lookUpDlc_of_le {n : BitVec 16} (h : n.toNat ≤ 64) :
    lookUpDlc n = .ok (BitVec.ofNat 64 (lenDlc n.toNat)) := by
  rw [lookUpDlc, if_neg (Nat.not_lt.mpr h)]

theorem lookUpDlc_of_gt {n : BitVec 16} (h : 64 < n.toNat) : lookUpDlc n = .error .invalidFrameSize := by
  rw [lookUpDlc, if_pos h]

theorem exec_dlcToLen (dlc : BitVec 8) (s : State) : exec (.dlcToLen dlc) s = .next (s.finish (lookUpLen dlc)) := rfl

theorem exec_lenToDlc (n : BitVec 16) (s : State) : exec (.lenToDlc n) s = .next (s.finish (lookUpDlc n)) := rfl

theorem exec_roundUpLen (n : BitVec 16) (s : State) :
    exec (.roundUpLen n) s = .next (s.finish ((roundUpFrameLength n.toNat).map (BitVec.ofNat 64))) := rfl

/-- DLC_TO_LEN of a DLC in the table (R133). -/
theorem exec_dlcToLen_of_le {dlc : BitVec 8} (h : dlc.toNat ≤ 15) (s : State) :
    exec (.dlcToLen dlc) s = .next (s.succeed (BitVec.ofNat 64 (dlcLen dlc.toNat)) []) := by
  rw [exec_dlcToLen, lookUpLen_of_le h, State.finish_ok]

/-- DLC_TO_LEN of a DLC outside the table (R133). -/
theorem exec_dlcToLen_of_gt {dlc : BitVec 8} (h : 15 < dlc.toNat) (s : State) :
    exec (.dlcToLen dlc) s = .next (s.fail .invalidFrameSize) := by
  rw [exec_dlcToLen, lookUpLen_of_gt h, State.finish_error]

/-- LEN_TO_DLC of a count in the table (R134). -/
theorem exec_lenToDlc_of_le {n : BitVec 16} (h : n.toNat ≤ 64) (s : State) :
    exec (.lenToDlc n) s = .next (s.succeed (BitVec.ofNat 64 (lenDlc n.toNat)) []) := by
  rw [exec_lenToDlc, lookUpDlc_of_le h, State.finish_ok]

/-- LEN_TO_DLC of a count outside the table (R134). -/
theorem exec_lenToDlc_of_gt {n : BitVec 16} (h : 64 < n.toNat) (s : State) :
    exec (.lenToDlc n) s = .next (s.fail .invalidFrameSize) := by
  rw [exec_lenToDlc, lookUpDlc_of_gt h, State.finish_error]

/-- ROUND_UP_LEN of a count up to the largest frame length (R135). -/
theorem exec_roundUpLen_of_le {n : BitVec 16} (h : n.toNat ≤ 64) (s : State) :
    exec (.roundUpLen n) s = .next (s.succeed (BitVec.ofNat 64 (quantize n.toNat)) []) := by
  rw [exec_roundUpLen, roundUpFrameLength_of_le h, Except.map, State.finish_ok]

/-- ROUND_UP_LEN of a count above the largest frame length (R135). -/
theorem exec_roundUpLen_of_gt {n : BitVec 16} (h : 64 < n.toNat) (s : State) :
    exec (.roundUpLen n) s = .next (s.fail .invalidFrameSize) := by
  rw [exec_roundUpLen, roundUpFrameLength_of_gt h, Except.map, State.finish_error]

/-- Settles O27: the command's two outcomes, its row of the opcode map, and four entries of the length table; the rule's
example is a DLC in the table. -/
theorem dlcToLenCommand : Obligations.DlcToLenCommand := by
  unfold Obligations.DlcToLenCommand
  exact ⟨fun _ s h => exec_dlcToLen_of_le h s, fun _ s h => exec_dlcToLen_of_gt h s,
    encodedAs_of_opcodeRow (o := 0x10) rfl, rfl, rfl, rfl, rfl, exec_dlcToLen_of_le (by decide)⟩

/-- Settles O28: the command's two outcomes, with `LEN_TO_DLC[n]` long enough for n bytes and the least such DLC, and its
row of the opcode map; the corner case 65 and the rule's example are one count of each outcome. -/
theorem lenToDlcCommand : Obligations.LenToDlcCommand := by
  unfold Obligations.LenToDlcCommand
  refine ⟨fun n s h => ⟨exec_lenToDlc_of_le h s, ?fits, fun d => ?least⟩, fun _ s h => exec_lenToDlc_of_gt h s,
    encodedAs_of_opcodeRow (o := 0x11) rfl, rfl, rfl, rfl, exec_lenToDlc_of_gt (by decide),
    exec_lenToDlc_of_le (by decide)⟩
  case fits => exact le_quantize n.toNat h
  case least => exact dlcLen_lt_of_lt_lenDlc h

/-- Settles O29: the command's two outcomes and its row of the opcode map; every corner case and the rule's example is a
count of one of the two outcomes. -/
theorem roundUpLenCommand : Obligations.RoundUpLenCommand := by
  unfold Obligations.RoundUpLenCommand
  refine ⟨fun n s h => ⟨quantize n.toNat, roundUpFrameLength_of_le h, exec_roundUpLen_of_le h s⟩,
    fun _ s h => exec_roundUpLen_of_gt h s, encodedAs_of_opcodeRow (o := 0x12) rfl, fun s => ?samples⟩
  case samples =>
    exact ⟨exec_roundUpLen_of_le (by decide) s, exec_roundUpLen_of_le (by decide) s, exec_roundUpLen_of_le (by decide) s,
      exec_roundUpLen_of_le (by decide) s, exec_roundUpLen_of_gt (by decide) s, exec_roundUpLen_of_le (by decide) s⟩

end Sys2Proof.Machine

namespace Sys2Proof.Machine

/-! ## Identifiers as sums of their fields (30_encoding.md R91 to R93)

The model builds an identifier with shifts and `|||`; the rules give it as a sum of fields times powers of two. The
fields do not overlap, so the two agree, and every claim about bits of an identifier becomes one about its number. -/

/-- A field shifted to its place, as a number, if it fits the 29 bits there. -/
theorem toNat_setWidth_shiftLeft {w : Nat} (p : BitVec w) (k : Nat) (h : p.toNat * 2 ^ k < 2 ^ 29) :
    (p.setWidth 29 <<< k : CanId).toNat = p.toNat * 2 ^ k := by
  have fits : p.toNat < 2 ^ 29 := lt_of_le_of_lt (Nat.le_mul_of_pos_right _ (Nat.two_pow_pos k)) h
  rw [BitVec.toNat_shiftLeft, BitVec.toNat_setWidth, Nat.mod_eq_of_lt fits, Nat.shiftLeft_eq, Nat.mod_eq_of_lt h]

/-- Joining a high part with a lower field adds them: the high part ends above the field. -/
theorem toNat_or_eq_add {w : Nat} {hi lo : BitVec w} (k : Nat) (hhi : 2 ^ k ∣ hi.toNat) (hlo : lo.toNat < 2 ^ k) :
    (hi ||| lo).toNat = hi.toNat + lo.toNat := by
  obtain ⟨a, ha⟩ := hhi
  rw [BitVec.toNat_or, ha, Nat.two_pow_add_eq_or_of_lt hlo]

/-- The bits of an identifier from `lo` on are 0 if its number is below `2 ^ lo`. -/
theorem extractLsb_eq_zero_of_lt {x : CanId} {hi lo : Nat} (h : x.toNat < 2 ^ lo) : x.extractLsb hi lo = 0 := by
  apply BitVec.eq_of_toNat_eq
  rw [BitVec.extractLsb_toNat, Nat.shiftRight_eq_div_pow, Nat.div_eq_of_lt h, Nat.zero_mod]
  rfl

/-! ### `make_message_id` (42_can_id.md R140) -/

theorem makeMessageId_of_valid {subject : BitVec 16} {src : BitVec 8} (hsrc : src.toNat ≤ 127)
    (hsubject : subject.toNat ≤ 8191) :
    ∃ id, makeMessageId subject src = .ok id ∧ id.toNat = subject.toNat * 2 ^ 8 + src.toNat := by
  have valid : (validNode src && validSubject subject) = true := by
    rw [(validNode_iff src).mpr hsrc, (validSubject_iff subject).mpr hsubject]; rfl
  refine ⟨_, by rw [makeMessageId, if_pos valid], ?_⟩
  have hhi : (subject.setWidth 29 <<< 8 : CanId).toNat = subject.toNat * 2 ^ 8 :=
    toNat_setWidth_shiftLeft subject 8 (by omega)
  have hlo : (src.setWidth 29 : CanId).toNat = src.toNat := BitVec.toNat_setWidth_of_le (by decide)
  rw [toNat_or_eq_add 8 (by omega) (by omega), hhi, hlo]

theorem makeMessageId_of_invalid {subject : BitVec 16} {src : BitVec 8} (h : 127 < src.toNat ∨ 8191 < subject.toNat) :
    makeMessageId subject src = .error .invalidArgument := by
  have invalid : ¬(validNode src && validSubject subject) = true := by
    rw [Bool.and_eq_true, validNode_iff, validSubject_iff]; omega
  rw [makeMessageId, if_neg invalid]

/-! ### `make_service_id` (42_can_id.md R141) -/

theorem makeServiceId_of_valid {service : BitVec 16} {req : Bool} {src dst : BitVec 8} (hsrc : src.toNat ≤ 127)
    (hdst : dst.toNat ≤ 127) (hservice : service.toNat ≤ 511) :
    ∃ id, makeServiceId service req src dst = .ok id ∧
      id.toNat = 2 ^ 25 + req.toNat * 2 ^ 24 + service.toNat * 2 ^ 14 + dst.toNat * 2 ^ 7 + src.toNat := by
  have valid : (validNode src && validNode dst && validService service) = true := by
    rw [(validNode_iff src).mpr hsrc, (validNode_iff dst).mpr hdst, (validService_iff service).mpr hservice]; rfl
  refine ⟨_, by rw [makeServiceId, if_pos valid], ?_⟩
  have hflag : (1 <<< 25 : CanId).toNat = 2 ^ 25 := rfl
  have hreqLe : req.toNat ≤ 1 := Bool.toNat_le req
  have hreq : ((BitVec.ofBool req).setWidth 29 <<< 24 : CanId).toNat = req.toNat * 2 ^ 24 := by cases req <;> rfl
  have hser : (service.setWidth 29 <<< 14 : CanId).toNat = service.toNat * 2 ^ 14 :=
    toNat_setWidth_shiftLeft service 14 (by omega)
  have hdest : (dst.setWidth 29 <<< 7 : CanId).toNat = dst.toNat * 2 ^ 7 :=
    toNat_setWidth_shiftLeft dst 7 (by omega)
  have hsource : (src.setWidth 29 : CanId).toNat = src.toNat := BitVec.toNat_setWidth_of_le (by decide)
  have join25 := toNat_or_eq_add (lo := ((BitVec.ofBool req).setWidth 29 <<< 24 : CanId)) 25
    (by rw [hflag]) (by omega)
  have join24 := toNat_or_eq_add (lo := (service.setWidth 29 <<< 14 : CanId)) 24
    (by rw [join25]; omega) (by omega)
  have join14 := toNat_or_eq_add (lo := (dst.setWidth 29 <<< 7 : CanId)) 14
    (by rw [join24]; omega) (by omega)
  have join7 := toNat_or_eq_add (lo := (src.setWidth 29 : CanId)) 7
    (by rw [join14]; omega) (by omega)
  rw [join7, join14, join24, join25, hflag, hreq, hser, hdest, hsource]

theorem makeServiceId_of_invalid {service : BitVec 16} {req : Bool} {src dst : BitVec 8}
    (h : 127 < src.toNat ∨ 127 < dst.toNat ∨ 511 < service.toNat) :
    makeServiceId service req src dst = .error .invalidArgument := by
  have invalid : ¬(validNode src && validNode dst && validService service) = true := by
    rw [Bool.and_eq_true, Bool.and_eq_true, validNode_iff, validNode_iff, validService_iff]; omega
  rw [makeServiceId, if_neg invalid]

/-- Settles O30: the identifier's number is `makeMessageId_of_valid`'s, below 2^21, so its higher bits are clear, and
the source stays below bit 7. -/
theorem messageIdPlacesItsFields : Obligations.MessageIdPlacesItsFields := by
  unfold Obligations.MessageIdPlacesItsFields
  refine ⟨fun subject src hsrc hsubject => ?valid, fun _ _ => makeMessageId_of_invalid⟩
  case valid =>
    obtain ⟨id, hok, hid⟩ := makeMessageId_of_valid hsrc hsubject
    have bit7 : id.getLsbD 7 = false := by
      rw [BitVec.getLsbD, Nat.testBit_eq_decide_div_mod_eq, decide_eq_false_iff_not]; omega
    exact ⟨id, hok, hid, extractLsb_eq_zero_of_lt (by omega), Nat.testBit_lt_two_pow (by omega),
      Nat.testBit_lt_two_pow (by omega), extractLsb_eq_zero_of_lt (by omega), bit7⟩

/-- Settles O31: the identifier's number is `makeServiceId_of_valid`'s; the priority bits, bit 23 and the service field
are read off it. -/
theorem serviceIdPlacesItsFields : Obligations.ServiceIdPlacesItsFields := by
  unfold Obligations.ServiceIdPlacesItsFields
  refine ⟨fun service req src dst hsrc hdst hservice => ?valid, fun _ _ _ _ => makeServiceId_of_invalid⟩
  case valid =>
    obtain ⟨id, hok, hid⟩ := makeServiceId_of_valid (req := req) hsrc hdst hservice
    have hreq : req.toNat ≤ 1 := Bool.toNat_le req
    have bit23 : id.getLsbD 23 = false := by
      rw [BitVec.getLsbD, Nat.testBit_eq_decide_div_mod_eq, decide_eq_false_iff_not]; omega
    have serviceField : (id.extractLsb 22 14).toNat = service.toNat := by
      rw [BitVec.extractLsb_toNat, Nat.shiftRight_eq_div_pow]; omega
    exact ⟨id, hok, hid, extractLsb_eq_zero_of_lt (by omega), bit23, serviceField⟩

/-! ### `make_can_id`, one lemma per case of R143 -/

/-- The priority goes above bit 26, and the one error is a zero result (R143, R144). -/
theorem withPriority_of_eq_zero {priority : BitVec 3} {id : CanId} (hid : id.toNat < 2 ^ 26)
    (h : priority.toNat * 2 ^ 26 + id.toNat = 0) : withPriority priority id = .error .invalidCanId := by
  have id_zero : id = 0 := BitVec.eq_of_toNat_eq (show id.toNat = 0 by omega)
  have priority_zero : priority = 0 := BitVec.eq_of_toNat_eq (show priority.toNat = 0 by omega)
  rw [id_zero, priority_zero]
  rfl

theorem withPriority_of_ne_zero {priority : BitVec 3} {id : CanId} (hid : id.toNat < 2 ^ 26)
    (h : priority.toNat * 2 ^ 26 + id.toNat ≠ 0) :
    ∃ xid, withPriority priority id = .ok xid ∧ xid.toNat = priority.toNat * 2 ^ 26 + id.toNat := by
  have hpriority : (priority.setWidth 29 <<< 26 : CanId).toNat = priority.toNat * 2 ^ 26 :=
    toNat_setWidth_shiftLeft priority 26 (by omega)
  have value : (id ||| (priority.setWidth 29 <<< 26)).toNat = priority.toNat * 2 ^ 26 + id.toNat := by
    rw [BitVec.or_comm, toNat_or_eq_add 26 (by omega) hid, hpriority]
  have nonzero : id ||| (priority.setWidth 29 <<< 26) ≠ 0 := fun h0 => h (by rw [← value, h0]; rfl)
  exact ⟨_, if_neg nonzero, value⟩

theorem makeCanId_of_base_ok {priority : BitVec 3} {k : TransferKind} {portId : BitVec 16} {remote : BitVec 8}
    {payload : List Byte} {loc : BitVec 8} {mtu : BitVec 7} {id : CanId}
    (h : baseCanId k portId remote payload loc mtu = .ok id) :
    makeCanId priority k portId remote payload loc mtu = withPriority priority id := by
  rw [makeCanId, h]

theorem makeCanId_of_base_error {priority : BitVec 3} {k : TransferKind} {portId : BitVec 16} {remote : BitVec 8}
    {payload : List Byte} {loc : BitVec 8} {mtu : BitVec 7} {e : ErrorKind}
    (h : baseCanId k portId remote payload loc mtu = .error e) :
    makeCanId priority k portId remote payload loc mtu = .error e := by
  rw [makeCanId, h]

/-- The source field of an anonymous message is the CRC's low seven bits (R143). -/
theorem anonymousSource_toNat (payload : List Byte) :
    (anonymousSource payload).toNat = (crc16 payload).toNat % 128 := by
  have mask : (crc16 payload &&& 0x7F).toNat = (crc16 payload).toNat % 128 :=
    Nat.and_two_pow_sub_one_eq_mod (crc16 payload).toNat 7
  rw [anonymousSource, BitVec.toNat_setWidth, mask]
  omega

section MessageCases
variable (priority : BitVec 3) {portId : BitVec 16} {remote : BitVec 8} {payload : List Byte} {loc : BitVec 8}
  {mtu : BitVec 7}

theorem baseCanId_message (hremote : 128 ≤ remote.toNat) (hport : portId.toNat ≤ 8191) :
    baseCanId .message portId remote payload loc mtu = messageCanId portId payload loc mtu := by
  have unset : validNode remote = false := decide_eq_false (show ¬remote.toNat ≤ 127 by omega)
  rw [baseCanId, unset, (validSubject_iff portId).mpr hport]
  rfl

/-- A message to a set node, or with a subject out of range. -/
theorem makeCanId_message_of_invalid (h : remote.toNat ≤ 127 ∨ 8191 < portId.toNat) :
    makeCanId priority .message portId remote payload loc mtu = .error .invalidArgument := by
  have invalid : ¬(!validNode remote && validSubject portId) = true := by
    rw [Bool.and_eq_true, Bool.not_eq_true', ← Bool.not_eq_true, validNode_iff, validSubject_iff]; omega
  exact makeCanId_of_base_error (if_neg invalid)

/-- A message from a valid local node, before its priority. -/
theorem baseCanId_message_of_valid (hremote : 128 ≤ remote.toNat) (hport : portId.toNat ≤ 8191)
    (hloc : loc.toNat ≤ 127) :
    ∃ id, baseCanId .message portId remote payload loc mtu = .ok id ∧ id.toNat = portId.toNat * 2 ^ 8 + loc.toNat := by
  obtain ⟨id, hok, hid⟩ := makeMessageId_of_valid hloc hport
  exact ⟨id, by rw [baseCanId_message hremote hport, messageCanId, if_pos ((validNode_iff loc).mpr hloc), hok], hid⟩

theorem makeCanId_message_of_valid (hremote : 128 ≤ remote.toNat) (hport : portId.toNat ≤ 8191)
    (hloc : loc.toNat ≤ 127) (hne : priority.toNat * 2 ^ 26 + portId.toNat * 2 ^ 8 + loc.toNat ≠ 0) :
    ∃ id, makeCanId priority .message portId remote payload loc mtu = .ok id ∧
      id.toNat = priority.toNat * 2 ^ 26 + portId.toNat * 2 ^ 8 + loc.toNat := by
  obtain ⟨base, hbase, hvalue⟩ :=
    baseCanId_message_of_valid (payload := payload) (mtu := mtu) hremote hport hloc
  obtain ⟨id, hok, hid⟩ := withPriority_of_ne_zero (priority := priority) (id := base) (by omega)
    (by rwa [hvalue, ← Nat.add_assoc])
  exact ⟨id, by rw [makeCanId_of_base_ok hbase, hok], by rw [hid, hvalue, Nat.add_assoc]⟩

/-- The one message whose identifier would be zero. -/
theorem makeCanId_message_of_zero (hremote : 128 ≤ remote.toNat) (hport : portId.toNat ≤ 8191)
    (hloc : loc.toNat ≤ 127) (hzero : priority.toNat * 2 ^ 26 + portId.toNat * 2 ^ 8 + loc.toNat = 0) :
    makeCanId priority .message portId remote payload loc mtu = .error .invalidCanId := by
  obtain ⟨base, hbase, hvalue⟩ :=
    baseCanId_message_of_valid (payload := payload) (mtu := mtu) hremote hport hloc
  rw [makeCanId_of_base_ok hbase, withPriority_of_eq_zero (by omega) (by rwa [hvalue, ← Nat.add_assoc])]

/-- An anonymous message that fits a single frame. -/
theorem makeCanId_message_of_anonymous (hremote : 128 ≤ remote.toNat) (hport : portId.toNat ≤ 8191)
    (hloc : 128 ≤ loc.toNat) (hpayload : payload.length ≤ presentationMtu mtu) :
    ∃ id, makeCanId priority .message portId remote payload loc mtu = .ok id ∧
      id.toNat = priority.toNat * 2 ^ 26 + 2 ^ 24 + portId.toNat * 2 ^ 8 + (crc16 payload).toNat % 128 := by
  have anonymous : ¬validNode loc = true := by rw [validNode_iff]; omega
  have hsource : (anonymousSource payload).toNat = (crc16 payload).toNat % 128 := anonymousSource_toNat payload
  obtain ⟨plain, hplain, hvalue⟩ := makeMessageId_of_valid (src := anonymousSource payload) (by omega) hport
  have hbase : baseCanId .message portId remote payload loc mtu = .ok (plain ||| (1 <<< 24)) := by
    rw [baseCanId_message hremote hport, messageCanId, if_neg anonymous, if_pos hpayload, hplain]
    rfl
  have hflag : (1 <<< 24 : CanId).toNat = 2 ^ 24 := rfl
  have flagged : (plain ||| (1 <<< 24)).toNat = 2 ^ 24 + plain.toNat := by
    rw [BitVec.or_comm, toNat_or_eq_add 24 (by rw [hflag]) (by omega), hflag]
  obtain ⟨id, hok, hid⟩ :=
    withPriority_of_ne_zero (priority := priority) (id := plain ||| (1 <<< 24)) (by omega) (by omega)
  exact ⟨id, by rw [makeCanId_of_base_ok hbase, hok], by simp only [hid, flagged, hvalue, hsource, Nat.add_assoc]⟩

/-- An anonymous message that needs several frames. -/
theorem makeCanId_message_of_anonymous_multi (hremote : 128 ≤ remote.toNat) (hport : portId.toNat ≤ 8191)
    (hloc : 128 ≤ loc.toNat) (hpayload : presentationMtu mtu < payload.length) :
    makeCanId priority .message portId remote payload loc mtu = .error .invalidArgument := by
  have anonymous : ¬validNode loc = true := by rw [validNode_iff]; omega
  refine makeCanId_of_base_error ?_
  rw [baseCanId_message hremote hport, messageCanId, if_neg anonymous, if_neg (Nat.not_le.mpr hpayload)]

end MessageCases

/-- The service kind that a request flag stands for: bit 24 of a service identifier (30_encoding.md R93). -/
def serviceKind (req : Bool) : TransferKind := if req then .request else .response

section ServiceCases
variable (priority : BitVec 3) (req : Bool) {portId : BitVec 16} {remote : BitVec 8} (payload : List Byte)
  {loc : BitVec 8} (mtu : BitVec 7)

/-- The two service branches of `make_can_id` differ in the request flag alone. -/
theorem baseCanId_serviceKind : baseCanId (serviceKind req) portId remote payload loc mtu =
    if validNode remote && validService portId then serviceCanId req portId remote loc
    else .error .invalidArgument := by
  cases req <;> rfl

theorem makeCanId_service_of_valid (hremote : remote.toNat ≤ 127) (hport : portId.toNat ≤ 511)
    (hloc : loc.toNat ≤ 127) :
    ∃ id, makeCanId priority (serviceKind req) portId remote payload loc mtu = .ok id ∧ id.toNat =
      priority.toNat * 2 ^ 26 + 2 ^ 25 + req.toNat * 2 ^ 24 + portId.toNat * 2 ^ 14 + remote.toNat * 2 ^ 7 +
        loc.toNat := by
  have hreq : req.toNat ≤ 1 := Bool.toNat_le req
  have valid : (validNode remote && validService portId) = true := by
    rw [(validNode_iff remote).mpr hremote, (validService_iff portId).mpr hport]; rfl
  obtain ⟨base, hservice, hvalue⟩ := makeServiceId_of_valid (req := req) hloc hremote hport
  have hbase : baseCanId (serviceKind req) portId remote payload loc mtu = .ok base := by
    rw [baseCanId_serviceKind, if_pos valid, serviceCanId, if_pos ((validNode_iff loc).mpr hloc), hservice]
  obtain ⟨id, hok, hid⟩ := withPriority_of_ne_zero (priority := priority) (id := base) (by omega) (by omega)
  exact ⟨id, by rw [makeCanId_of_base_ok hbase, hok], by simp only [hid, hvalue, Nat.add_assoc]⟩

theorem makeCanId_service_of_invalid (h : 127 < remote.toNat ∨ 511 < portId.toNat ∨ 127 < loc.toNat) :
    makeCanId priority (serviceKind req) portId remote payload loc mtu = .error .invalidArgument := by
  refine makeCanId_of_base_error ?_
  rw [baseCanId_serviceKind, serviceCanId]
  split
  case isFalse => rfl
  case isTrue hports =>
    rw [Bool.and_eq_true, validNode_iff, validService_iff] at hports
    have anonymous : ¬validNode loc = true := by rw [validNode_iff]; omega
    rw [if_neg anonymous]

end ServiceCases

/-- Settles O32: each clause is the lemma of its case. -/
theorem canIdBuilderFollowsItsCases : Obligations.CanIdBuilderFollowsItsCases := by
  unfold Obligations.CanIdBuilderFollowsItsCases
  intro prio portId remote payload loc mtu
  refine ⟨fun hremote hport hloc => ⟨?zero, ?valid⟩, ?anonymous, ?anonymousMulti, ?otherMessage, ?service,
    ?otherService⟩
  case zero => exact makeCanId_message_of_zero prio hremote hport hloc
  case valid => exact makeCanId_message_of_valid prio hremote hport hloc
  case anonymous => exact makeCanId_message_of_anonymous prio
  case anonymousMulti => exact makeCanId_message_of_anonymous_multi prio
  case otherMessage => exact makeCanId_message_of_invalid prio
  case service =>
    intro hremote hport hloc
    obtain ⟨request, hrequest, requestValue⟩ := makeCanId_service_of_valid prio true payload mtu hremote hport hloc
    obtain ⟨response, hresponse, responseValue⟩ := makeCanId_service_of_valid prio false payload mtu hremote hport hloc
    rw [Bool.toNat_true, Nat.one_mul] at requestValue
    rw [Bool.toNat_false, Nat.zero_mul, Nat.add_zero] at responseValue
    exact ⟨⟨request, hrequest, requestValue⟩, response, hresponse, responseValue⟩
  case otherService =>
    exact fun h => ⟨makeCanId_service_of_invalid prio true payload mtu h,
      makeCanId_service_of_invalid prio false payload mtu h⟩

end Sys2Proof.Machine

namespace Sys2Proof.Machine

/-! ## The commands of the identifier packer and unpacker (42_can_id.md R145 to R149) -/

theorem exec_makeMessageId (src : BitVec 8) (subject : BitVec 16) (s : State) :
    exec (.makeMessageId src subject) s = .next (s.finish (canIdRes (makeMessageId subject src))) := rfl

theorem exec_makeServiceId (src dst : BitVec 8) (service : BitVec 16) (req : Bool) (s : State) :
    exec (.makeServiceId src dst service req) s =
      .next (s.finish (canIdRes (makeServiceId service req src dst))) := rfl

theorem exec_makeCanId (loc remote : BitVec 8) (portId : BitVec 16) (priority : BitVec 3) (k : TransferKind)
    (s : State) :
    exec (.makeCanId loc remote portId priority (kindCode k)) s =
      .next (s.finish (canIdRes (makeCanId priority k portId remote s.ib loc s.mtu))) := by
  rw [exec, execMakeCanId, kindOfCode_kindCode]

theorem exec_unpackId (x : BitVec 32) (s : State) :
    exec (.unpackId x) s = .next (s.succeed (idFieldsRes (unpackId s.cfg.subjectRxMsb (canIdOf x))) []) := rfl

@[simp] theorem canIdRes_ok (id : CanId) : canIdRes (.ok id) = .ok (id.setWidth 64) := rfl

@[simp] theorem canIdRes_error (e : ErrorKind) : canIdRes (.error e) = .error e := rfl

/-- RES of an identifier, as a number. -/
theorem setWidth_eq_of_toNat {id : CanId} {r : BitVec 64} (h : id.toNat = r.toNat) : id.setWidth 64 = r :=
  BitVec.eq_of_toNat_eq (by rw [BitVec.toNat_setWidth_of_le (by decide), h])

/-! ### MAKE_MESSAGE_ID and MAKE_SERVICE_ID -/

/-- RES of MAKE_MESSAGE_ID, as the number of R140. -/
theorem exec_makeMessageId_value {src : BitVec 8} {subject : BitVec 16} {r : BitVec 64} (s : State)
    (hsrc : src.toNat ≤ 127) (hsubject : subject.toNat ≤ 8191) (hr : subject.toNat * 2 ^ 8 + src.toNat = r.toNat) :
    exec (.makeMessageId src subject) s = .next (s.succeed r []) := by
  obtain ⟨id, hok, hid⟩ := makeMessageId_of_valid hsrc hsubject
  rw [exec_makeMessageId, hok, canIdRes_ok, State.finish_ok, setWidth_eq_of_toNat (hid.trans hr)]

theorem exec_makeMessageId_of_invalid {src : BitVec 8} {subject : BitVec 16} (s : State)
    (h : 127 < src.toNat ∨ 8191 < subject.toNat) :
    exec (.makeMessageId src subject) s = .next (s.fail .invalidArgument) := by
  rw [exec_makeMessageId, makeMessageId_of_invalid h, canIdRes_error, State.finish_error]

/-- RES of MAKE_SERVICE_ID, as the number of R141. -/
theorem exec_makeServiceId_value {src dst : BitVec 8} {service : BitVec 16} {req : Bool} {r : BitVec 64} (s : State)
    (hsrc : src.toNat ≤ 127) (hdst : dst.toNat ≤ 127) (hservice : service.toNat ≤ 511)
    (hr : 2 ^ 25 + req.toNat * 2 ^ 24 + service.toNat * 2 ^ 14 + dst.toNat * 2 ^ 7 + src.toNat = r.toNat) :
    exec (.makeServiceId src dst service req) s = .next (s.succeed r []) := by
  obtain ⟨id, hok, hid⟩ := makeServiceId_of_valid (req := req) hsrc hdst hservice
  rw [exec_makeServiceId, hok, canIdRes_ok, State.finish_ok, setWidth_eq_of_toNat (hid.trans hr)]

theorem exec_makeServiceId_of_invalid {src dst : BitVec 8} {service : BitVec 16} (req : Bool) (s : State)
    (h : 127 < src.toNat ∨ 127 < dst.toNat ∨ 511 < service.toNat) :
    exec (.makeServiceId src dst service req) s = .next (s.fail .invalidArgument) := by
  rw [exec_makeServiceId, makeServiceId_of_invalid h, canIdRes_error, State.finish_error]

/-- Settles O34: the command's two outcomes and its row of the opcode map; the corner cases and the example are operands
of one of the two outcomes. -/
theorem makeMessageIdCommand : Obligations.MakeMessageIdCommand := by
  unfold Obligations.MakeMessageIdCommand
  refine ⟨fun src subject s hsrc hsubject => ?valid, fun _ _ s => exec_makeMessageId_of_invalid s,
    encodedAs_of_opcodeRow (o := 0x20) rfl, fun s => ?samples⟩
  case valid =>
    obtain ⟨id, hok, -⟩ := makeMessageId_of_valid hsrc hsubject
    exact ⟨id, hok, by rw [exec_makeMessageId, hok]; rfl⟩
  case samples =>
    exact ⟨exec_makeMessageId_value s (by decide) (by decide) rfl,
      exec_makeMessageId_value s (by decide) (by decide) rfl,
      exec_makeMessageId_of_invalid s (by decide), exec_makeMessageId_of_invalid s (by decide),
      exec_makeMessageId_value s (by decide) (by decide) rfl⟩

/-- Settles O35: the command's two outcomes and its row of the opcode map; the corner cases and the example are operands
of one of the two outcomes. -/
theorem makeServiceIdCommand : Obligations.MakeServiceIdCommand := by
  unfold Obligations.MakeServiceIdCommand
  refine ⟨fun src dst service req s hsrc hdst hservice => ?valid,
    fun _ _ _ req s => exec_makeServiceId_of_invalid req s, encodedAs_of_opcodeRow (o := 0x21) rfl, fun s => ?samples⟩
  case valid =>
    obtain ⟨id, hok, -⟩ := makeServiceId_of_valid (req := req) hsrc hdst hservice
    exact ⟨id, hok, by rw [exec_makeServiceId, hok]; rfl⟩
  case samples =>
    exact ⟨exec_makeServiceId_value s (by decide) (by decide) (by decide) rfl,
      exec_makeServiceId_value s (by decide) (by decide) (by decide) rfl,
      exec_makeServiceId_of_invalid false s (by decide),
      exec_makeServiceId_value s (by decide) (by decide) (by decide) rfl⟩

/-! ### MAKE_CAN_ID -/

/-- Subject, source and priority are all 0 exactly when the sum of R144 is. -/
theorem messageValue_eq_zero_iff {priority : BitVec 3} {portId : BitVec 16} {loc : BitVec 8} :
    priority.toNat * 2 ^ 26 + portId.toNat * 2 ^ 8 + loc.toNat = 0 ↔ loc = 0 ∧ portId = 0 ∧ priority = 0 := by
  rw [← BitVec.toNat_inj, ← BitVec.toNat_inj (x := portId), ← BitVec.toNat_inj (x := priority)]
  change _ ↔ loc.toNat = 0 ∧ portId.toNat = 0 ∧ priority.toNat = 0
  omega

/-- Accepted operands give an identifier. -/
theorem makeCanId_of_accepted {priority : BitVec 3} {k : TransferKind} {portId : BitVec 16} {remote : BitVec 8}
    {payload : List Byte} {loc : BitVec 8} {mtu : BitVec 7}
    (h : idAccepted priority k portId remote payload loc mtu) :
    ∃ id, makeCanId priority k portId remote payload loc mtu = .ok id := by
  have service (req : Bool) (hremote : remote.toNat ≤ 127) (hport : portId.toNat ≤ 511) (hloc : loc.toNat ≤ 127) :
      ∃ id, makeCanId priority (serviceKind req) portId remote payload loc mtu = .ok id := by
    obtain ⟨id, hok, -⟩ := makeCanId_service_of_valid priority req payload mtu hremote hport hloc
    exact ⟨id, hok⟩
  cases k with
  | message =>
    obtain ⟨hremote, hport, hsender, hnonzero⟩ := h
    by_cases hloc : loc.toNat ≤ 127
    · obtain ⟨id, hok, -⟩ := makeCanId_message_of_valid priority hremote hport hloc
        (mt messageValue_eq_zero_iff.mp hnonzero)
      exact ⟨id, hok⟩
    · obtain ⟨id, hok, -⟩ := makeCanId_message_of_anonymous priority (loc := loc) hremote hport (by omega)
        (hsender.resolve_left hloc)
      exact ⟨id, hok⟩
  | request =>
    obtain ⟨hremote, hport, hloc⟩ := h
    exact service true hremote hport hloc
  | response =>
    obtain ⟨hremote, hport, hloc⟩ := h
    exact service false hremote hport hloc

/-- The zero identifier (R144). -/
theorem makeCanId_of_zero {priority : BitVec 3} {portId : BitVec 16} {remote : BitVec 8} {payload : List Byte}
    {loc : BitVec 8} {mtu : BitVec 7} (hremote : 128 ≤ remote.toNat) (hzero : loc = 0 ∧ portId = 0 ∧ priority = 0) :
    makeCanId priority .message portId remote payload loc mtu = .error .invalidCanId := by
  have value : priority.toNat * 2 ^ 26 + portId.toNat * 2 ^ 8 + loc.toNat = 0 := messageValue_eq_zero_iff.mpr hzero
  exact makeCanId_message_of_zero priority hremote (by omega) (by omega) value

/-- Operands that are neither accepted nor those of the zero identifier. -/
theorem makeCanId_of_not_accepted {priority : BitVec 3} {k : TransferKind} {portId : BitVec 16} {remote : BitVec 8}
    {payload : List Byte} {loc : BitVec 8} {mtu : BitVec 7}
    (h : ¬idAccepted priority k portId remote payload loc mtu)
    (hzero : ¬(k = .message ∧ 128 ≤ remote.toNat ∧ loc = 0 ∧ portId = 0 ∧ priority = 0)) :
    makeCanId priority k portId remote payload loc mtu = .error .invalidArgument := by
  have service (req : Bool) (hnot : ¬(remote.toNat ≤ 127 ∧ portId.toNat ≤ 511 ∧ loc.toNat ≤ 127)) :
      makeCanId priority (serviceKind req) portId remote payload loc mtu = .error .invalidArgument :=
    makeCanId_service_of_invalid priority req payload mtu (by omega)
  cases k with
  | message =>
    by_cases hports : remote.toNat ≤ 127 ∨ 8191 < portId.toNat
    · exact makeCanId_message_of_invalid priority hports
    · have hremote : 128 ≤ remote.toNat := by omega
      have hport : portId.toNat ≤ 8191 := by omega
      have hnonzero : ¬(loc = 0 ∧ portId = 0 ∧ priority = 0) := fun h0 => hzero ⟨rfl, hremote, h0⟩
      have hsender : ¬(loc.toNat ≤ 127 ∨ payload.length ≤ presentationMtu mtu) :=
        fun hs => h ⟨hremote, hport, hs, hnonzero⟩
      exact makeCanId_message_of_anonymous_multi priority hremote hport (by omega) (by omega)
  | request => exact service true h
  | response => exact service false h

/-- The CRC of the example of R147. -/
theorem crc16_sample : crc16 [1, 2, 3] = 0xADAD := by
  simp [crc16, crcUpdate, crcBits, crcBit]

/-- Settles O36: the three outcomes by the operands, each by the lemma of `make_can_id` for it; its row of the opcode
map, and KIND = 3 by the decoder; the anonymous corner cases and the example are cases of an anonymous message. -/
theorem makeCanIdCommand : Obligations.MakeCanIdCommand := by
  unfold Obligations.MakeCanIdCommand
  refine ⟨fun loc remote portId prio k s => ⟨?accepted, ?zero, ?otherwise⟩, encodedAs_of_opcodeRow (o := 0x22) rfl,
    fun w s ib hw hkind hl => ?reservedKind, fun loc remote portId prio mtu payload hloc hremote hport =>
      ⟨?emptyPayload, fun hlen => ?fullPayload, fun hlen => ?tooLong⟩, fun s hmtu hib => ?sample⟩
  case accepted =>
    intro h
    obtain ⟨id, hok⟩ := makeCanId_of_accepted h
    exact ⟨id, hok, by rw [exec_makeCanId, hok]; rfl⟩
  case zero =>
    rintro ⟨rfl, hremote, hzero⟩
    rw [exec_makeCanId, makeCanId_of_zero hremote hzero]
    rfl
  case otherwise =>
    intro h hzero
    rw [exec_makeCanId, makeCanId_of_not_accepted h hzero]
    rfl
  case reservedKind =>
    have row : ((0x22, 0xFFFFE000000000FF) : BitVec 8 × CommandWord) ∈ opcodeMasks := by decide
    exact step_issue_rejected hl (decode_reservedKind row hw (.inl rfl) hkind)
  case emptyPayload =>
    obtain ⟨id, hok, hid⟩ := makeCanId_message_of_anonymous prio (payload := []) (mtu := mtu) hremote hport hloc
      (Nat.zero_le _)
    refine ⟨id, hok, BitVec.eq_of_toNat_eq ?_⟩
    have crc_empty : (crc16 []).toNat % 128 = 127 := rfl
    rw [BitVec.extractLsb_toNat, hid, crc_empty]
    change _ = 127
    omega
  case fullPayload =>
    obtain ⟨id, hok, -⟩ := makeCanId_message_of_anonymous prio hremote hport hloc hlen.le
    exact ⟨id, hok⟩
  case tooLong => exact makeCanId_message_of_anonymous_multi prio hremote hport hloc (by omega)
  case sample =>
    obtain ⟨id, hok, hid⟩ := makeCanId_message_of_anonymous 4 (portId := 100) (remote := 0xFF) (payload := s.ib)
      (loc := 0xFF) (mtu := s.mtu) (by decide) (by decide) (by decide) (by rw [hib, hmtu]; decide)
    rw [hib, crc16_sample] at hid
    have run : exec (.makeCanId 0xFF 0xFF 100 4 0) s = .next (s.succeed (id.setWidth 64) []) := by
      rw [show (0 : BitVec 2) = kindCode .message from rfl, exec_makeCanId, hok, canIdRes_ok, State.finish_ok]
    rw [run, setWidth_eq_of_toNat (r := 0x1100642D) hid]
    rfl

/-! ### `unpack_id` and UNPACK_ID -/

/-- A service identifier (bit 25 set), field by field (R148). -/
theorem unpackId_service (msb : SubjectRxMsb) {x : CanId} (h : x.getLsbD 25 = true) :
    unpackId msb x =
      { priority := x.extractLsb' 26 3, kind := serviceKind (x.getLsbD 24), portId := (x.extractLsb' 14 9).setWidth 16,
        src := (x.extractLsb' 0 7).setWidth 8, dst := (x.extractLsb' 7 7).setWidth 8 } := by
  rw [unpackId, if_pos h, serviceKind]

/-- A Message identifier (bit 25 clear), field by field (R148). -/
theorem unpackId_message (msb : SubjectRxMsb) {x : CanId} (h : x.getLsbD 25 = false) :
    unpackId msb x =
      { priority := x.extractLsb' 26 3, kind := .message, portId := subjectField msb x,
        src := if x.getLsbD 24 then unsetNode else (x.extractLsb' 0 7).setWidth 8, dst := unsetNode } := by
  rw [unpackId, if_neg (by rw [h]; decide)]

/-- A field of at most the target width, as a number. -/
theorem toNat_extractLsb'_setWidth (x : CanId) (lo : Nat) {n w : Nat} (h : n ≤ w) :
    ((x.extractLsb' lo n).setWidth w).toNat = x.toNat / 2 ^ lo % 2 ^ n := by
  rw [BitVec.toNat_setWidth_of_le h, BitVec.extractLsb'_toNat, Nat.shiftRight_eq_div_pow]

theorem toNat_subjectField (msb : SubjectRxMsb) (x : CanId) :
    (subjectField msb x).toNat = x.toNat / 2 ^ 8 % (if msb = .bit21 then 2 ^ 14 else 2 ^ 13) := by
  cases msb with
  | bit21 => exact toNat_extractLsb'_setWidth x 8 (by decide)
  | bit20 => exact toNat_extractLsb'_setWidth x 8 (by decide)

/-- Flipping bits outside a field leaves the field. -/
theorem extractLsb'_xor_of_clear {x m : CanId} {lo n : Nat} (h : ∀ j, j < n → m.getLsbD (lo + j) = false) :
    (x ^^^ m).extractLsb' lo n = x.extractLsb' lo n := by
  apply BitVec.eq_of_getLsbD_eq
  intro j hj
  rw [BitVec.getLsbD_extractLsb', BitVec.getLsbD_extractLsb', BitVec.getLsbD_xor, h j hj, Bool.xor_false]

theorem getLsbD_xor_of_clear {x m : CanId} {j : Nat} (h : m.getLsbD j = false) :
    (x ^^^ m).getLsbD j = x.getLsbD j := by
  rw [BitVec.getLsbD_xor, h, Bool.xor_false]

/-- The bits of a Message identifier that `unpack_id` ignores: 23, 22 and 7, and 21 when the subject field ends at 20
(R148). -/
theorem unpackId_message_ignores (msb : SubjectRxMsb) {x m : CanId} (hx : x.getLsbD 25 = false)
    (hm : ∀ j, m.getLsbD j = true → j = 23 ∨ j = 22 ∨ j = 7 ∨ (j = 21 ∧ msb = .bit20)) :
    unpackId msb (x ^^^ m) = unpackId msb x := by
  have clear (j : Nat) (hj : ¬(j = 23 ∨ j = 22 ∨ j = 7 ∨ (j = 21 ∧ msb = .bit20))) : m.getLsbD j = false :=
    Bool.eq_false_of_not_eq_true (mt (hm j) hj)
  have subject : subjectField msb (x ^^^ m) = subjectField msb x := by
    cases msb with
    | bit21 =>
      have outside (j : Nat) (hj : j < 14) :
          ¬(8 + j = 23 ∨ 8 + j = 22 ∨ 8 + j = 7 ∨ (8 + j = 21 ∧ SubjectRxMsb.bit21 = .bit20)) := by
        simp only [reduceCtorEq, and_false, or_false]
        omega
      rw [subjectField, subjectField, extractLsb'_xor_of_clear fun j hj => clear _ (outside j hj)]
    | bit20 => rw [subjectField, subjectField, extractLsb'_xor_of_clear fun j hj => clear _ (by omega)]
  have hxm : (x ^^^ m).getLsbD 25 = false := (getLsbD_xor_of_clear (clear 25 (by omega))).trans hx
  rw [unpackId_message msb hxm, unpackId_message msb hx, subject, getLsbD_xor_of_clear (clear 24 (by omega)),
    extractLsb'_xor_of_clear fun j hj => clear (26 + j) (by omega),
    extractLsb'_xor_of_clear fun j hj => clear (0 + j) (by omega)]

/-- The bit of a service identifier that `unpack_id` ignores: 23 (R148). -/
theorem unpackId_service_ignores (msb : SubjectRxMsb) {x m : CanId} (hx : x.getLsbD 25 = true)
    (hm : ∀ j, m.getLsbD j = true → j = 23) : unpackId msb (x ^^^ m) = unpackId msb x := by
  have clear (j : Nat) (hj : j ≠ 23) : m.getLsbD j = false := Bool.eq_false_of_not_eq_true (mt (hm j) hj)
  have hxm : (x ^^^ m).getLsbD 25 = true := (getLsbD_xor_of_clear (clear 25 (by omega))).trans hx
  rw [unpackId_service msb hxm, unpackId_service msb hx, getLsbD_xor_of_clear (clear 24 (by omega)),
    extractLsb'_xor_of_clear fun j hj => clear (26 + j) (by omega),
    extractLsb'_xor_of_clear fun j hj => clear (14 + j) (by omega),
    extractLsb'_xor_of_clear fun j hj => clear (0 + j) (by omega),
    extractLsb'_xor_of_clear fun j hj => clear (7 + j) (by omega)]

/-- The identifier of a 32-bit container is its low 29 bits (30_encoding.md R91). -/
theorem setWidth_canId_eq_mask (y : BitVec 32) : (y.setWidth 29 : CanId).setWidth 32 = y &&& 0x1FFFFFFF := by
  apply BitVec.eq_of_toNat_eq
  have mask : (y &&& 0x1FFFFFFF).toNat = y.toNat % 2 ^ 29 := Nat.and_two_pow_sub_one_eq_mod y.toNat 29
  rw [BitVec.toNat_setWidth_of_le (by decide), BitVec.toNat_setWidth, mask]

/-- Settles O37: the fields of the two layouts, the ignored bits of each, the mask of the container, and 0x200000, whose
subject is 8192. -/
theorem unpackExtractsTheLayoutFields : Obligations.UnpackExtractsTheLayoutFields := by
  unfold Obligations.UnpackExtractsTheLayoutFields
  refine ⟨fun msb x hx => ?message, fun msb x hx => ?service, fun msb _ _ => unpackId_message_ignores msb,
    fun msb _ _ => unpackId_service_ignores msb, setWidth_canId_eq_mask, 0x200000, by decide, by decide⟩
  case message =>
    rw [unpackId_message msb hx]
    refine ⟨rfl, rfl, rfl, ?source, toNat_subjectField msb x⟩
    case source =>
      dsimp only
      split
      · rfl
      · rw [toNat_extractLsb'_setWidth x 0 (by decide), pow_zero, Nat.div_one]
  case service =>
    rw [unpackId_service msb hx]
    refine ⟨rfl, rfl, toNat_extractLsb'_setWidth x 14 (by decide), toNat_extractLsb'_setWidth x 7 (by decide), ?_⟩
    exact (toNat_extractLsb'_setWidth x 0 (by decide)).trans (by rw [pow_zero, Nat.div_one])

/-- Settles O38: the command's one outcome, its row of the opcode map, and the fields of the two layouts at the corner
cases and the example, which SUBJECT_RX_MSB does not touch. -/
theorem unpackIdCommand : Obligations.UnpackIdCommand := by
  unfold Obligations.UnpackIdCommand
  refine ⟨exec_unpackId, encodedAs_of_opcodeRow (o := 0x23) rfl, fun msb => unpackId_service msb (by decide),
    fun msb x hx => ?anonymous, fun s => ?sample⟩
  case anonymous =>
    rw [unpackId_message msb hx]
    exact ⟨rfl, fun hanonymous => if_pos hanonymous⟩
  case sample =>
    have fields : unpackId s.cfg.subjectRxMsb (canIdOf 0x126B9507) = ⟨4, .response, 430, 7, 42⟩ :=
      unpackId_service _ (by decide)
    rw [exec_unpackId, fields]
    rfl

end Sys2Proof.Machine

namespace Sys2Proof.Machine

/-! ## The tail-byte framer (43_tail_byte.md R170 to R173) -/

/-- A concatenation as a number: the high part above the low part's bits. -/
theorem toNat_append_eq_add {m n : Nat} (hi : BitVec m) (lo : BitVec n) :
    (hi ++ lo).toNat = hi.toNat * 2 ^ n + lo.toNat := by
  rw [BitVec.toNat_append, ← Nat.shiftLeft_add_eq_or_of_lt lo.isLt, Nat.shiftLeft_eq]

/-! ### `make_tail_byte` and MAKE_TAIL -/

/-- The byte that `make_tail_byte` lays out, as the sum of R170: of the transfer-id only the low five bits enter. -/
theorem toNat_tailLayout (startBit endBit toggle : Bool) (tid : BitVec 8) :
    (BitVec.ofBool startBit ++ BitVec.ofBool endBit ++ BitVec.ofBool toggle ++ tid.extractLsb' 0 5).toNat =
      startBit.toNat * 128 + endBit.toNat * 64 + toggle.toNat * 32 + tid.toNat % 32 := by
  have low_bits : (tid.extractLsb' 0 5).toNat = tid.toNat % 32 := BitVec.extractLsb'_toNat 0 5 tid
  simp only [toNat_append_eq_add, BitVec.toNat_ofBool, low_bits]
  omega

/-- `make_tail_byte` without start and toggle 0 together (R170). -/
theorem makeTailByte_of_legal {startBit toggle : Bool} (h : startBit = false ∨ toggle = true) (endBit : Bool)
    (tid : BitVec 8) :
    ∃ t, makeTailByte startBit endBit toggle tid = .ok t ∧
      t.toNat = startBit.toNat * 128 + endBit.toNat * 64 + toggle.toNat * 32 + tid.toNat % 32 := by
  obtain ⟨rfl, rfl, -⟩ | ⟨-, hok⟩ := makeTailByte_cases startBit endBit toggle tid
  · simp at h
  · exact ⟨_, hok, toNat_tailLayout startBit endBit toggle tid⟩

/-- `make_tail_byte` with start and toggle 0 (R170). -/
theorem makeTailByte_start_without_toggle (endBit : Bool) (tid : BitVec 8) :
    makeTailByte true endBit false tid = .error .invalidState := by
  obtain ⟨-, -, herror⟩ | ⟨hlegal, -⟩ := makeTailByte_cases true endBit false tid
  · exact herror
  · exact absurd ⟨rfl, rfl⟩ hlegal

theorem exec_makeTail (tid : BitVec 8) (startBit endBit toggle : Bool) (s : State) :
    exec (.makeTail tid startBit endBit toggle) s =
      .next (s.finish ((makeTailByte startBit endBit toggle tid).map (·.setWidth 64))) := rfl

/-- MAKE_TAIL of operands that give a byte (R171). -/
theorem exec_makeTail_of_ok {tid : BitVec 8} {startBit endBit toggle : Bool} {t : Byte}
    (h : makeTailByte startBit endBit toggle tid = .ok t) (s : State) :
    exec (.makeTail tid startBit endBit toggle) s = .next (s.succeed (t.setWidth 64) []) := by
  rw [exec_makeTail, h, Except.map, State.finish_ok]

/-- MAKE_TAIL with start and toggle 0 (R171). -/
theorem exec_makeTail_start_without_toggle (tid : BitVec 8) (endBit : Bool) (s : State) :
    exec (.makeTail tid true endBit false) s = .next (s.fail .invalidState) := by
  rw [exec_makeTail, makeTailByte_start_without_toggle, Except.map, State.finish_error]

/-- Settles O40: the two outcomes of `make_tail_byte` and of its command, and its row of the opcode map; the corner
cases and the example are operands that give a byte. -/
theorem makeTailCommand : Obligations.MakeTailCommand := by
  unfold Obligations.MakeTailCommand
  refine ⟨fun tid startBit endBit toggle h => ?legal,
    fun tid endBit => ⟨makeTailByte_start_without_toggle endBit tid, exec_makeTail_start_without_toggle tid endBit⟩,
    encodedAs_of_opcodeRow (o := 0x30) rfl, fun s => ?samples⟩
  case legal =>
    obtain ⟨t, hok, hvalue⟩ := makeTailByte_of_legal h endBit tid
    exact ⟨t, hok, hvalue, exec_makeTail_of_ok hok⟩
  case samples =>
    exact ⟨exec_makeTail_of_ok (t := 0xFF) rfl s, exec_makeTail_of_ok (t := 0xE5) rfl s,
      exec_makeTail_of_ok (t := 0x00) rfl s, exec_makeTail_of_ok (t := 0xA5) rfl s⟩

/-! ### `decode_tail` and DECODE_TAIL -/

/-- The four fields of a tail byte (R172). -/
theorem decodeTail_eq (t : Byte) :
    decodeTail t = ⟨t.getLsbD 7, t.getLsbD 6, t.getLsbD 5, t.extractLsb 4 0⟩ := rfl

/-- RES of DECODE_TAIL by the bits of the byte (R173). -/
theorem tailRes_eq (t : Byte) :
    tailRes t = t.setWidth 64 |||
      ((frameTypeCode (frameTypeOf (t.getLsbD 7) (t.getLsbD 6))).setWidth 64 <<< 8) := by
  rw [tailRes, decodeTail_eq]

theorem exec_decodeTail (tail : BitVec 8) (s : State) :
    exec (.decodeTail tail) s = .next (s.succeed (tailRes tail) []) := rfl

/-- RES of DECODE_TAIL at a given byte. -/
theorem exec_decodeTail_value {tail : BitVec 8} {r : BitVec 64} (h : tailRes tail = r) (s : State) :
    exec (.decodeTail tail) s = .next (s.succeed r []) := by
  rw [exec_decodeTail, h]

/-- Settles O41: the fields and the four frame types, the command's one outcome and its row of the opcode map; the
corner cases and the example are values of its result. -/
theorem decodeTailCommand : Obligations.DecodeTailCommand := by
  unfold Obligations.DecodeTailCommand
  refine ⟨fun t => ?fields, ⟨rfl, rfl, rfl, rfl⟩, fun tail => exec_decodeTail_value (tailRes_eq tail),
    encodedAs_of_opcodeRow (o := 0x31) rfl, fun s => ?samples⟩
  case fields =>
    rw [decodeTail_eq]
    exact ⟨rfl, rfl, rfl, rfl⟩
  case samples =>
    exact ⟨exec_decodeTail_value (by decide) s, exec_decodeTail_value (by decide) s,
      exec_decodeTail_value (by decide) s, exec_decodeTail_value (by decide) s⟩

end Sys2Proof.Machine

namespace Sys2Proof.Machine

/-! ## The fragmenter (44_fragmenter.md R180 to R185) -/

/-! ### Frame lengths under a legal MTU -/

/-- A legal MTU is a frame length, so rounding up leaves it (41_dlc.md R132). -/
theorem quantize_of_legalMtu {m : Nat} (h : legalMtu m = true) : quantize m = m := by
  have table : ∀ m ∈ legalMtus, quantize m = m := by decide
  exact table m (List.contains_iff_mem.mp h)

/-- The range of the legal MTU values (10_state.md R22). -/
theorem legalMtu_range {m : Nat} (h : legalMtu m = true) : 8 ≤ m ∧ m ≤ 64 := by
  have table : ∀ m ∈ legalMtus, 8 ≤ m ∧ m ≤ 64 := by decide
  exact table m (List.contains_iff_mem.mp h)

/-- The payload bytes of a full frame: all but the tail byte (R180). -/
theorem presentationMtu_of_legal {mtu : BitVec 7} (h : legalMtu mtu.toNat = true) :
    presentationMtu mtu = mtu.toNat - 1 := by
  obtain ⟨hlow, hhigh⟩ := legalMtu_range h
  rw [presentationMtu, max_eq_left hlow, min_eq_left hhigh, quantize_of_legalMtu h]

/-- Whatever MTU holds, a full frame has at most 63 payload bytes. -/
theorem presentationMtu_le (mtu : BitVec 7) : presentationMtu mtu ≤ 63 :=
  Nat.sub_le_of_le_add (quantize_le _)

/-- A payload of at most the presentation MTU fits one frame of a legal MTU (R182). -/
theorem quantize_succ_le_mtu {mtu : BitVec 7} (h : legalMtu mtu.toNat = true) {n : Nat}
    (hn : n ≤ presentationMtu mtu) : quantize (n + 1) ≤ mtu.toNat := by
  obtain ⟨hlow, hhigh⟩ := legalMtu_range h
  rw [presentationMtu_of_legal h] at hn
  calc quantize (n + 1) ≤ quantize mtu.toNat := quantize_mono (by omega) hhigh
    _ = mtu.toNat := quantize_of_legalMtu h

/-! ### Where a frame's body and tail byte stand (30_encoding.md R97) -/

/-- The frame of length `len` that holds the data bytes `d`, the tail byte `t` and `fill` bytes of zero. -/
def frameOf (xid : CanId) (len : Nat) (d : List Byte) (t : Byte) (fill : Nat) : OutboundFrame :=
  { xid := xid, len := len, data := d ++ [t] ++ zeros fill }

theorem frameOf_body {xid : CanId} {len : Nat} {d : List Byte} {t : Byte} {fill : Nat} (h : d.length = len - 1) :
    (frameOf xid len d t fill).body = d := by
  rw [frameOf, OutboundFrame.body, List.append_assoc, ← h, List.take_left]

theorem frameOf_tailByte {xid : CanId} {len : Nat} {d : List Byte} {t : Byte} {fill : Nat} (h : d.length = len - 1) :
    (frameOf xid len d t fill).tailByte = t := by
  simp [frameOf, OutboundFrame.tailByte, byteAt, ← h]

/-- A tail byte carries the low five bits of its transfer-id (43_tail_byte.md R170, R172). -/
theorem transferId_of_makeTailByte {startBit endBit toggle : Bool} {tid : BitVec 8} {t : Byte}
    (h : makeTailByte startBit endBit toggle tid = .ok t) : (decodeTail t).transferId.toNat = tid.toNat % 32 := by
  obtain ⟨-, -, herror⟩ | ⟨-, hok⟩ := makeTailByte_cases startBit endBit toggle tid
  · rw [h] at herror; cases herror
  · obtain rfl : t = _ := Except.ok.inj (h.symm.trans hok)
    rw [decodeTail, BitVec.extractLsb'_toNat, toNat_tailLayout]
    change (_ >>> 0) % 32 = _
    rw [Nat.shiftRight_zero]
    omega

/-- What every frame of one transfer has: the transfer's identifier, and its transfer-id in the tail byte. -/
def OutboundFrame.OfTransfer (xid : CanId) (tid : BitVec 8) (f : OutboundFrame) : Prop :=
  f.xid = xid ∧ (decodeTail f.tailByte).transferId.toNat = tid.toNat % 32

theorem frameOf_ofTransfer {xid : CanId} {tid : BitVec 8} {len : Nat} {d : List Byte} {t : Byte} {fill : Nat}
    {startBit endBit toggle : Bool} (ht : makeTailByte startBit endBit toggle tid = .ok t) (h : d.length = len - 1) :
    (frameOf xid len d t fill).OfTransfer xid tid :=
  ⟨rfl, by rw [frameOf_tailByte h, transferId_of_makeTailByte ht]⟩

/-! ### The single-frame path (R182) -/

theorem singleFrame_of_fits {xid : CanId} {tid : BitVec 8} {payload : List Byte} {mtu : Nat}
    (hlen : payload.length + 1 ≤ 64) (hfit : quantize (payload.length + 1) ≤ mtu) :
    ∃ f, singleFrame xid tid payload mtu = .ok [f] ∧ f.OfTransfer xid tid ∧
      f.len = quantize (payload.length + 1) ∧
      f.body = payload ++ zeros (quantize (payload.length + 1) - 1 - payload.length) := by
  obtain ⟨t, ht⟩ := exists_makeTailByte_eq_ok (startBit := true) (toggle := initialToggle) (fun _ => rfl) true tid
  have hround : payload.length + 1 ≤ quantize (payload.length + 1) := le_quantize _ hlen
  have hd : (payload ++ zeros (quantize (payload.length + 1) - 1 - payload.length)).length =
      quantize (payload.length + 1) - 1 := by
    rw [List.length_append, zeros_length]; omega
  refine ⟨frameOf xid (quantize (payload.length + 1)) _ t (mtu - quantize (payload.length + 1)), ?_,
    frameOf_ofTransfer ht hd, rfl, frameOf_body hd⟩
  rw [singleFrame, roundUpFrameLength_of_le hlen]
  simp only [if_neg (Nat.not_lt.mpr hfit), ht, frameOf]

theorem singleFrame_of_oversized {xid : CanId} {tid : BitVec 8} {payload : List Byte} {mtu : Nat}
    (hlen : payload.length + 1 ≤ 64) (hover : mtu < quantize (payload.length + 1)) :
    singleFrame xid tid payload mtu = .error .invalidFrameSize := by
  rw [singleFrame, roundUpFrameLength_of_le hlen]
  exact if_pos hover

/-! ### The multi-frame path (R183) -/

/-- While `p` bytes are left the frame is full; the last frame is the rest rounded up (R183, R184). -/
theorem multiFrameLength_of_le {p rem : Nat} (h : p ≤ rem) : multiFrameLength p rem = p + 1 := if_pos h

theorem multiFrameLength_of_lt {p rem : Nat} (h : rem < p) : multiFrameLength p rem = quantize (rem + 1) :=
  if_neg (Nat.not_le.mpr h)

/-- When the payload has just been placed, both CRC bytes follow as far as there is room (R183). -/
theorem placeCrc_of_payload_placed {n cap : Nat} {f : Fill} (h : f.off = n) :
    (placeCrcLow n cap (placeCrcHigh n cap f)).d.length = f.d.length + min 2 (cap - f.d.length) ∧
      (placeCrcLow n cap (placeCrcHigh n cap f)).off = f.off + min 2 (cap - f.d.length) := by
  by_cases hroom : f.d.length < cap
  · rw [placeCrcHigh, if_pos ⟨hroom, h⟩]
    by_cases hroomLow : f.d.length + 1 < cap
    · have two : min 2 (cap - f.d.length) = 2 := by omega
      rw [placeCrcLow, if_pos (by simpa [h] using hroomLow), two]
      simp
    · have one : min 2 (cap - f.d.length) = 1 := by omega
      rw [placeCrcLow, if_neg (by simp [hroomLow]), one]
      simp
  · have none : min 2 (cap - f.d.length) = 0 := by omega
    rw [placeCrcHigh, if_neg (by omega), placeCrcLow, if_neg (by omega), none]
    exact ⟨rfl, rfl⟩

/-- When the CRC's high byte stands in the frame before, the low byte follows (R183). -/
theorem placeCrc_of_high_placed {n cap : Nat} {f : Fill} (h : f.off = n + 1) (hroom : f.d.length < cap) :
    (placeCrcLow n cap (placeCrcHigh n cap f)).d.length = f.d.length + 1 ∧
      (placeCrcLow n cap (placeCrcHigh n cap f)).off = n + 2 := by
  rw [placeCrcHigh, if_neg (by omega), placeCrcLow, if_pos ⟨hroom, by omega⟩]
  simp [h]

/-- A frame that the payload fills leaves the CRC to later frames. -/
theorem fillFrame_of_payload_left {payload : List Byte} {p off : Nat} (cap : Nat) (c : CrcState)
    (h : off + p < payload.length) :
    (fillFrame payload p cap off c).d.length = p ∧ (fillFrame payload p cap off c).off = off + p := by
  have hcopied : min (payload.length - off) p = p := by omega
  have hleft : (copyPayload payload p off c).off < payload.length := by rw [copyPayload_off, hcopied]; exact h
  have hfill : fillFrame payload p cap off c = copyPayload payload p off c := if_pos hleft
  rw [hfill, copyPayload_length, copyPayload_off, hcopied]
  exact ⟨rfl, rfl⟩

/-- A frame that reaches the payload's end is padded, and takes the CRC bytes that have room. -/
theorem fillFrame_of_payload_end {payload : List Byte} {p off : Nat} (cap : Nat) (c : CrcState)
    (hoff : off ≤ payload.length) (h : payload.length ≤ off + p) :
    (fillFrame payload p cap off c).d.length = max (payload.length - off) (cap - 2) +
        min 2 (cap - max (payload.length - off) (cap - 2)) ∧
      (fillFrame payload p cap off c).off =
        payload.length + min 2 (cap - max (payload.length - off) (cap - 2)) := by
  have hcopied : min (payload.length - off) p = payload.length - off := by omega
  have hend : (copyPayload payload p off c).off = payload.length := by rw [copyPayload_off, hcopied]; omega
  have hplaced : (padFrame cap (copyPayload payload p off c)).off = payload.length := hend
  obtain ⟨hlength, hcursor⟩ := placeCrc_of_payload_placed (cap := cap) hplaced
  rw [padFrame_length, copyPayload_length, hcopied] at hlength hcursor
  simp only [fillFrame, hend, lt_irrefl, if_false]
  exact ⟨hlength, hcursor.trans (by rw [hplaced])⟩

/-- The frame after one that ended in the CRC's high byte holds the low byte alone. -/
theorem fillFrame_of_high_placed {payload : List Byte} {p off : Nat} (c : CrcState) (hoff : off = payload.length + 1) :
    (fillFrame payload p 1 off c).d.length = 1 ∧ (fillFrame payload p 1 off c).off = payload.length + 2 := by
  have hcopied : min (payload.length - off) p = 0 := by omega
  have hend : (copyPayload payload p off c).off = payload.length + 1 := by rw [copyPayload_off, hcopied]; omega
  have hplaced : (padFrame 1 (copyPayload payload p off c)).off = payload.length + 1 := hend
  have hempty : (padFrame 1 (copyPayload payload p off c)).d.length = 0 := by
    rw [padFrame_length, copyPayload_length, hcopied]; rfl
  obtain ⟨hlength, hcursor⟩ := placeCrc_of_high_placed (cap := 1) hplaced (by omega)
  have hpast : ¬(copyPayload payload p off c).off < payload.length := by omega
  simp only [fillFrame, if_neg hpast]
  exact ⟨hlength.trans (by rw [hempty]), hcursor⟩

/-- One round fills its frame up to the tail byte, and moves the cursor by `p` or to the end of the CRC. -/
theorem fillFrame_round {payload : List Byte} {p off : Nat} (c : CrcState) (hp : 2 ≤ p) (hp' : p ≤ 63)
    (hoff : off < payload.length + 2) :
    (fillFrame payload p (multiFrameLength p (payload.length + 2 - off) - 1) off c).d.length =
        multiFrameLength p (payload.length + 2 - off) - 1 ∧
      (fillFrame payload p (multiFrameLength p (payload.length + 2 - off) - 1) off c).off =
        min (off + p) (payload.length + 2) := by
  by_cases hfull : p ≤ payload.length + 2 - off
  · rw [multiFrameLength_of_le hfull, Nat.add_sub_cancel]
    by_cases hleft : off + p < payload.length
    · obtain ⟨hlength, hcursor⟩ := fillFrame_of_payload_left p c hleft
      omega
    · obtain ⟨hlength, hcursor⟩ := fillFrame_of_payload_end (payload := payload) (p := p) (off := off) p c (by omega)
        (by omega)
      omega
  · have hlast : payload.length + 2 - off < p := Nat.not_le.mp hfull
    rw [multiFrameLength_of_lt hlast]
    by_cases hhigh : off = payload.length + 1
    · have one_left : payload.length + 2 - off = 1 := by omega
      have low_byte : quantize (1 + 1) - 1 = 1 := rfl
      rw [one_left, low_byte]
      obtain ⟨hlength, hcursor⟩ := fillFrame_of_high_placed (p := p) c hhigh
      omega
    · have hround : payload.length + 2 - off + 1 ≤ quantize (payload.length + 2 - off + 1) :=
        le_quantize _ (by omega)
      obtain ⟨hlength, hcursor⟩ := fillFrame_of_payload_end (payload := payload) (p := p) (off := off)
        (quantize (payload.length + 2 - off + 1) - 1) c (by omega) (by omega)
      omega

/-- The count of R185 loses one frame for every `p` bytes placed. -/
theorem frames_left_succ {p rem : Nat} (hp : 0 < p) (hrem : 0 < rem) :
    (rem + p - 1) / p = (rem - p + p - 1) / p + 1 := by
  rw [show rem + p - 1 = rem - 1 + p by omega, Nat.add_div_right _ hp]
  by_cases hlast : rem ≤ p
  · rw [Nat.div_eq_of_lt (show rem - 1 < p by omega), Nat.div_eq_of_lt (show rem - p + p - 1 < p by omega)]
  · rw [show rem - p + p - 1 = rem - 1 by omega]

/-- The frames the loop makes from a cursor on: as many as the bytes left need, each of the transfer (R183, R185). -/
theorem multiFrameLoop_frames (xid : CanId) (tid : BitVec 8) (payload : List Byte) {p : Nat} (mtu : Nat) (hp : 2 ≤ p)
    (hp' : p ≤ 63) {fuel : Nat} {first toggle : Bool} (htoggle : first = true → toggle = true) {off : Nat}
    (c : CrcState) (hfuel : payload.length + 2 - off ≤ fuel) :
    ∃ fs, multiFrameLoop xid tid payload p mtu fuel first toggle off c = .ok fs ∧
      fs.length = (payload.length + 2 - off + p - 1) / p ∧ ∀ f ∈ fs, f.OfTransfer xid tid := by
  induction fuel generalizing first toggle off c with
  | zero =>
    have hnone : (payload.length + 2 - off + p - 1) / p = 0 := Nat.div_eq_of_lt (by omega)
    exact ⟨[], rfl, hnone.symm, by simp⟩
  | succ fuel ih =>
    by_cases hoff : off < payload.length + 2
    · obtain ⟨t, ht⟩ := exists_makeTailByte_eq_ok htoggle _ tid
      obtain ⟨hlength, hcursor⟩ := fillFrame_round c hp hp' hoff
      obtain ⟨rest, hrest, hcount, hall⟩ := ih (first := false) (toggle := !toggle) (by simp)
        (off := min (off + p) (payload.length + 2)) _ (by omega)
      refine ⟨_, by rw [multiFrameLoop_round hoff ht, hcursor, hrest]; rfl, ?count, ?frames⟩
      case count =>
        rw [List.length_cons, hcount, frames_left_succ (by omega) (show 0 < payload.length + 2 - off by omega),
          show payload.length + 2 - min (off + p) (payload.length + 2) = payload.length + 2 - off - p by omega]
      case frames => exact List.forall_mem_cons.mpr ⟨frameOf_ofTransfer ht hlength, hall⟩
    · have hnone : (payload.length + 2 - off + p - 1) / p = 0 := Nat.div_eq_of_lt (by omega)
      exact ⟨[], multiFrameLoop_done _ _ _ _ _ _ _ _ _ _ (by omega), hnone.symm, by simp⟩

theorem multiFrame_frames (xid : CanId) (tid : BitVec 8) (payload : List Byte) {p : Nat} (mtu : Nat) (hp : 2 ≤ p)
    (hp' : p ≤ 63) :
    ∃ fs, multiFrame xid tid payload p mtu = .ok fs ∧ fs.length = frameCount payload.length p ∧
      ∀ f ∈ fs, f.OfTransfer xid tid :=
  multiFrameLoop_frames xid tid payload mtu hp hp' (fun _ => rfl) (crc16 payload) le_rfl

/-! ### `create_packet` (R181), by the length of the payload -/

section CreatePacket
variable {priority : BitVec 3} {k : TransferKind} {portId : BitVec 16} {remote : BitVec 8} {payload : List Byte}
  {loc : BitVec 8} {mtu : BitVec 7}

/-- Operands without an identifier fail with InvalidCanId, whatever the identifier builder's error (R181). -/
theorem createPacket_of_not_accepted (tid : BitVec 8) (h : ¬idAccepted priority k portId remote payload loc mtu) :
    createPacket priority k portId remote tid payload loc mtu = .error .invalidCanId := by
  have hid : ∃ e, makeCanId priority k portId remote payload loc mtu = .error e := by
    by_cases hzero : k = .message ∧ 128 ≤ remote.toNat ∧ loc = 0 ∧ portId = 0 ∧ priority = 0
    · obtain ⟨rfl, hremote, hzero⟩ := hzero
      exact ⟨_, makeCanId_of_zero hremote hzero⟩
    · exact ⟨_, makeCanId_of_not_accepted h hzero⟩
  obtain ⟨e, he⟩ := hid
  rw [createPacket, he]

/-- An identifier, and a payload whose one frame would be longer than MTU (R182). -/
theorem createPacket_of_oversized (tid : BitVec 8) (h : idAccepted priority k portId remote payload loc mtu)
    (hlen : payload.length ≤ presentationMtu mtu) (hover : mtu.toNat < quantize (payload.length + 1)) :
    createPacket priority k portId remote tid payload loc mtu = .error .invalidFrameSize := by
  obtain ⟨xid, hxid⟩ := makeCanId_of_accepted h
  have hmax : presentationMtu mtu ≤ 63 := presentationMtu_le mtu
  rw [createPacket, hxid]
  simp only [if_pos hlen, singleFrame_of_oversized (show payload.length + 1 ≤ 64 by omega) hover]

/-- The single-frame path under a legal MTU: one frame of the rounded length, its body the padded payload. -/
theorem createPacket_of_single (tid : BitVec 8) {xid : CanId} (hmtu : legalMtu mtu.toNat = true)
    (hxid : makeCanId priority k portId remote payload loc mtu = .ok xid)
    (hlen : payload.length ≤ presentationMtu mtu) :
    ∃ f, createPacket priority k portId remote tid payload loc mtu = .ok [f] ∧ f.OfTransfer xid tid ∧
      f.len = quantize (payload.length + 1) ∧
      f.body = payload ++ zeros (quantize (payload.length + 1) - 1 - payload.length) := by
  have hmax : presentationMtu mtu ≤ 63 := presentationMtu_le mtu
  obtain ⟨f, hf, hshape⟩ := singleFrame_of_fits (xid := xid) (tid := tid) (payload := payload) (by omega)
    (quantize_succ_le_mtu hmtu hlen)
  exact ⟨f, by rw [createPacket, hxid]; simp only [if_pos hlen, hf], hshape⟩

/-- The multi-frame path under a legal MTU: as many frames as R185 counts. -/
theorem createPacket_of_multi (tid : BitVec 8) {xid : CanId} (hmtu : legalMtu mtu.toNat = true)
    (hxid : makeCanId priority k portId remote payload loc mtu = .ok xid)
    (hlen : presentationMtu mtu < payload.length) :
    ∃ fs, createPacket priority k portId remote tid payload loc mtu = .ok fs ∧
      fs.length = frameCount payload.length (presentationMtu mtu) ∧ ∀ f ∈ fs, f.OfTransfer xid tid := by
  obtain ⟨hlow, hhigh⟩ := legalMtu_range hmtu
  have hp : presentationMtu mtu = mtu.toNat - 1 := presentationMtu_of_legal hmtu
  obtain ⟨fs, hfs, hshape⟩ := multiFrame_frames xid tid payload (p := presentationMtu mtu) mtu.toNat (by omega)
    (by omega)
  exact ⟨fs, by rw [createPacket, hxid]; simp only [if_neg (Nat.not_le.mpr hlen), hfs], hshape⟩

/-- Accepted operands under a legal MTU give at least one frame, all of one identifier and transfer-id (R181, R186). -/
theorem createPacket_of_accepted (tid : BitVec 8) (hmtu : legalMtu mtu.toNat = true)
    (h : idAccepted priority k portId remote payload loc mtu) :
    ∃ xid fs, makeCanId priority k portId remote payload loc mtu = .ok xid ∧
      createPacket priority k portId remote tid payload loc mtu = .ok fs ∧ fs ≠ [] ∧
      ∀ f ∈ fs, f.OfTransfer xid tid := by
  obtain ⟨xid, hxid⟩ := makeCanId_of_accepted h
  by_cases hlen : payload.length ≤ presentationMtu mtu
  · obtain ⟨f, hf, hof, -⟩ := createPacket_of_single tid hmtu hxid hlen
    exact ⟨xid, [f], hxid, hf, by simp, List.forall_mem_singleton.mpr hof⟩
  · obtain ⟨fs, hfs, hcount, hall⟩ := createPacket_of_multi tid hmtu hxid (Nat.not_le.mp hlen)
    refine ⟨xid, fs, hxid, hfs, List.ne_nil_of_length_pos ?_, hall⟩
    have hlow : 8 ≤ mtu.toNat := (legalMtu_range hmtu).1
    have hp : presentationMtu mtu = mtu.toNat - 1 := presentationMtu_of_legal hmtu
    rw [hcount, frameCount]
    exact Nat.div_pos (by omega) (by omega)

end CreatePacket

/-! ### The frames at the payload lengths the rules name (R186, R187) -/

section PayloadLengths
variable {priority : BitVec 3} {k : TransferKind} {portId : BitVec 16} {remote tid : BitVec 8} {payload : List Byte}
  {loc : BitVec 8} {mtu : BitVec 7} {xid : CanId} {fs : List OutboundFrame}

/-- An empty payload is one frame of a tail byte alone. -/
theorem createPacket_frames_of_nil (hmtu : legalMtu mtu.toNat = true)
    (hxid : makeCanId priority k portId remote payload loc mtu = .ok xid)
    (hfs : createPacket priority k portId remote tid payload loc mtu = .ok fs) (h : payload = []) :
    fs.length = 1 ∧ ∀ f ∈ fs, f.len = 1 := by
  subst h
  obtain ⟨f, hf, -, hlen, -⟩ := createPacket_of_single tid hmtu hxid (Nat.zero_le _)
  obtain rfl : fs = [f] := Except.ok.inj (hfs.symm.trans hf)
  exact ⟨rfl, List.forall_mem_singleton.mpr hlen⟩

/-- A payload of the presentation MTU fills one frame without padding. -/
theorem createPacket_frames_of_full (hmtu : legalMtu mtu.toNat = true)
    (hxid : makeCanId priority k portId remote payload loc mtu = .ok xid)
    (hfs : createPacket priority k portId remote tid payload loc mtu = .ok fs)
    (h : payload.length = presentationMtu mtu) :
    fs.length = 1 ∧ ∀ f ∈ fs, f.len = mtu.toNat ∧ f.body = payload := by
  obtain ⟨hlow, -⟩ := legalMtu_range hmtu
  have hfull : payload.length + 1 = mtu.toNat := by rw [h, presentationMtu_of_legal hmtu]; omega
  obtain ⟨f, hf, -, hlen, hbody⟩ := createPacket_of_single tid hmtu hxid h.le
  obtain rfl : fs = [f] := Except.ok.inj (hfs.symm.trans hf)
  rw [hfull, quantize_of_legalMtu hmtu] at hlen hbody
  have nopad : mtu.toNat - 1 - payload.length = 0 := by omega
  rw [nopad, zeros_zero, List.append_nil] at hbody
  exact ⟨rfl, List.forall_mem_singleton.mpr ⟨hlen, hbody⟩⟩

/-- A longer payload takes the frames that R185 counts. -/
theorem createPacket_length_of_multi (hmtu : legalMtu mtu.toNat = true)
    (hxid : makeCanId priority k portId remote payload loc mtu = .ok xid)
    (hfs : createPacket priority k portId remote tid payload loc mtu = .ok fs)
    (h : presentationMtu mtu < payload.length) : fs.length = frameCount payload.length (presentationMtu mtu) := by
  obtain ⟨gs, hgs, hcount, -⟩ := createPacket_of_multi tid hmtu hxid h
  obtain rfl : fs = gs := Except.ok.inj (hfs.symm.trans hgs)
  exact hcount

/-- One byte more than fills a frame takes two. -/
theorem createPacket_frames_of_full_succ (hmtu : legalMtu mtu.toNat = true)
    (hxid : makeCanId priority k portId remote payload loc mtu = .ok xid)
    (hfs : createPacket priority k portId remote tid payload loc mtu = .ok fs)
    (h : payload.length = presentationMtu mtu + 1) : fs.length = 2 := by
  obtain ⟨hlow, -⟩ := legalMtu_range hmtu
  have hp : presentationMtu mtu = mtu.toNat - 1 := presentationMtu_of_legal hmtu
  rw [createPacket_length_of_multi hmtu hxid hfs (by omega), h, frameCount]
  exact Nat.div_eq_of_lt_le (by omega) (by omega)

end PayloadLengths

/-- The one frame of the examples of R187 and R188. -/
theorem createPacket_sample : createPacket 4 .message 100 0xFF 0 [1, 2, 3] 10 8 =
    .ok [{ xid := 0x1000640A, len := 4, data := [1, 2, 3, 0xE0, 0, 0, 0, 0] }] := rfl

end Sys2Proof.Machine

namespace Sys2Proof.Machine

/-! ## The commands of the fragmenter (44_fragmenter.md R187 to R190) -/

/-- RES of frames of one identifier (30_encoding.md R100). -/
theorem framesRes_of_xid {fs : List OutboundFrame} {xid : CanId} (hne : fs ≠ []) (h : ∀ f ∈ fs, f.xid = xid) :
    framesRes fs = BitVec.ofNat 64 fs.length ||| (xid.setWidth 64 <<< 32) := by
  obtain ⟨f, rest, rfl⟩ := List.exists_cons_of_ne_nil hne
  rw [framesRes, firstXid, h f List.mem_cons_self]

/-! ### CREATE_PACKET -/

theorem exec_createPacket (tid remote : BitVec 8) (portId : BitVec 16) (priority : BitVec 3) (k : TransferKind)
    (s : State) :
    exec (.createPacket tid remote portId priority (kindCode k)) s =
      .next (s.finishFrames (createPacket priority k portId remote tid s.ib s.nodeId s.mtu)) := by
  rw [exec, execCreatePacket, kindOfCode_kindCode]

section CreatePacketOutcomes
variable {tid remote : BitVec 8} {portId : BitVec 16} {priority : BitVec 3} {k : TransferKind} {s : State}

theorem exec_createPacket_of_ok {fs : List OutboundFrame}
    (h : createPacket priority k portId remote tid s.ib s.nodeId s.mtu = .ok fs) :
    exec (.createPacket tid remote portId priority (kindCode k)) s =
      .next (s.succeed (framesRes fs) (fs.map OutRecord.outbound)) := by
  rw [exec_createPacket, h, State.finishFrames]

theorem exec_createPacket_of_error {e : ErrorKind}
    (h : createPacket priority k portId remote tid s.ib s.nodeId s.mtu = .error e) :
    exec (.createPacket tid remote portId priority (kindCode k)) s = .next (s.fail e) := by
  rw [exec_createPacket, h, State.finishFrames]

end CreatePacketOutcomes

/-- An anonymous node sends no message of several frames (42_can_id.md R143). -/
theorem not_idAccepted_of_anonymous_multi {priority : BitVec 3} {portId : BitVec 16} {remote loc : BitVec 8}
    {payload : List Byte} {mtu : BitVec 7} (hloc : 128 ≤ loc.toNat) (hlen : presentationMtu mtu < payload.length) :
    ¬idAccepted priority .message portId remote payload loc mtu := by
  rintro ⟨-, -, hsender, -⟩
  omega

/-- Settles O49: the outcomes of `create_packet` by its operands, with the frame counts of the named payload lengths; its
row of the opcode map, and KIND = 3 by the decoder; an anonymous multi-frame message is not accepted, and the example is
one accepted frame. -/
theorem createPacketCommand : Obligations.CreatePacketCommand := by
  unfold Obligations.CreatePacketCommand
  refine ⟨fun tid remote portId prio k s => ⟨fun hmtu h => ?accepted, fun h => ?notAccepted,
      fun h hlen hover => ?oversized⟩, encodedAs_of_opcodeRow (o := 0x40) rfl, fun w s ib hw hkind hl => ?reservedKind,
    fun tid remote portId prio s hloc hlen => ?anonymous, fun s hnode hmtu hib => ?sample⟩
  case accepted =>
    obtain ⟨xid, fs, hxid, hfs, hne, hall⟩ := createPacket_of_accepted tid hmtu h
    have hxids : ∀ f ∈ fs, f.xid = xid := fun f hf => (hall f hf).1
    refine ⟨xid, fs, hxid, hfs, hne, hxids, ?_, createPacket_frames_of_nil hmtu hxid hfs,
      createPacket_frames_of_full hmtu hxid hfs, createPacket_frames_of_full_succ hmtu hxid hfs,
      fun f hf => (hall f hf).2⟩
    rw [exec_createPacket_of_ok hfs, framesRes_of_xid hne hxids]
    rfl
  case notAccepted => exact exec_createPacket_of_error (createPacket_of_not_accepted tid h)
  case oversized => exact exec_createPacket_of_error (createPacket_of_oversized tid h hlen hover)
  case reservedKind =>
    have row : ((0x40, 0xFFFFE000000000FF) : BitVec 8 × CommandWord) ∈ opcodeMasks := by decide
    exact step_issue_rejected hl (decode_reservedKind row hw (.inr rfl) hkind)
  case anonymous =>
    exact exec_createPacket_of_error (k := .message)
      (createPacket_of_not_accepted tid (not_idAccepted_of_anonymous_multi hloc hlen))
  case sample =>
    exact exec_createPacket_of_ok (k := .message) (by rw [hnode, hmtu, hib, createPacket_sample])

/-! ### What the SEND_* commands share (R191) -/

section Transfer
variable {s : State} {k : TransferKind} {portId : BitVec 16} {remote : BitVec 8}

/-- A transfer that made frames also advances TID. -/
theorem State.sendTransfer_of_ok {fs : List OutboundFrame}
    (h : createPacket s.cfg.prioNominal k portId remote s.tid s.ib s.nodeId s.mtu = .ok fs) :
    s.sendTransfer k portId remote =
      { s.succeed (framesRes fs) (fs.map OutRecord.outbound) with tid := nextTid s.cfg.tidModulus s.tid } := by
  rw [State.sendTransfer, h]

theorem State.sendTransfer_of_error {e : ErrorKind}
    (h : createPacket s.cfg.prioNominal k portId remote s.tid s.ib s.nodeId s.mtu = .error e) :
    s.sendTransfer k portId remote = s.fail e := by
  rw [State.sendTransfer, h]

theorem State.sendTransfer_of_accepted (hmtu : legalMtu s.mtu.toNat = true)
    (h : idAccepted s.cfg.prioNominal k portId remote s.ib s.nodeId s.mtu) :
    ∃ xid fs, makeCanId s.cfg.prioNominal k portId remote s.ib s.nodeId s.mtu = .ok xid ∧
      createPacket s.cfg.prioNominal k portId remote s.tid s.ib s.nodeId s.mtu = .ok fs ∧ fs ≠ [] ∧
      (∀ f ∈ fs, f.xid = xid) ∧
      s.sendTransfer k portId remote =
        { s.succeed (BitVec.ofNat 64 fs.length ||| (xid.setWidth 64 <<< 32)) (fs.map OutRecord.outbound) with
          tid := nextTid s.cfg.tidModulus s.tid } := by
  obtain ⟨xid, fs, hxid, hfs, hne, hall⟩ := createPacket_of_accepted s.tid hmtu h
  have hxids : ∀ f ∈ fs, f.xid = xid := fun f hf => (hall f hf).1
  exact ⟨xid, fs, hxid, hfs, hne, hxids, by rw [State.sendTransfer_of_ok hfs, framesRes_of_xid hne hxids]⟩

theorem State.sendTransfer_of_not_accepted
    (h : ¬idAccepted s.cfg.prioNominal k portId remote s.ib s.nodeId s.mtu) :
    s.sendTransfer k portId remote = s.fail .invalidCanId :=
  State.sendTransfer_of_error (createPacket_of_not_accepted s.tid h)

theorem State.sendTransfer_of_oversized (h : idAccepted s.cfg.prioNominal k portId remote s.ib s.nodeId s.mtu)
    (hlen : s.ib.length ≤ presentationMtu s.mtu) (hover : s.mtu.toNat < quantize (s.ib.length + 1)) :
    s.sendTransfer k portId remote = s.fail .invalidFrameSize :=
  State.sendTransfer_of_error (createPacket_of_oversized s.tid h hlen hover)

/-- A transfer that succeeded left TID advanced. -/
theorem State.sendTransfer_tid_of_ok (h : (s.sendTransfer k portId remote).status = 0) :
    (s.sendTransfer k portId remote).tid = nextTid s.cfg.tidModulus s.tid := by
  obtain ⟨fs, -, hs⟩ | ⟨e, -, hs⟩ := s.sendTransfer_cases k portId remote
  · rw [hs]
  · rw [hs, State.fail_status] at h
    exact absurd h (errorCode_ne_ok e)

end Transfer

/-- TID wraps to 0 at its modulus (R191). -/
theorem nextTid_of_last {m : TidModulus} {tid : BitVec 8} (h : tid.toNat + 1 = tidModulus m) : nextTid m tid = 0 := by
  rw [nextTid, h, Nat.mod_self]
  rfl

/-- From 0 TID advances to 1 under either modulus. -/
theorem nextTid_zero (m : TidModulus) : nextTid m 0 = 1 := by
  cases m <;> rfl

/-! ### SEND_MESSAGE -/

theorem exec_sendMessage (subject : BitVec 16) (s : State) :
    exec (.sendMessage subject) s = .next (s.sendTransfer .message subject 0xFF) := rfl

/-- The identifier of an anonymous message has the anonymous flag, bit 24 (42_can_id.md R143). -/
theorem makeCanId_message_anonymous_flag {priority : BitVec 3} {portId : BitVec 16} {remote loc : BitVec 8}
    {payload : List Byte} {mtu : BitVec 7} {xid : CanId}
    (h : idAccepted priority .message portId remote payload loc mtu)
    (hxid : makeCanId priority .message portId remote payload loc mtu = .ok xid) (hloc : 128 ≤ loc.toNat) :
    xid.getLsbD 24 = true := by
  obtain ⟨hremote, hport, hsender, -⟩ := h
  obtain ⟨id, hid, hvalue⟩ := makeCanId_message_of_anonymous priority hremote hport hloc
    (hsender.resolve_left (by omega))
  obtain rfl : xid = id := Except.ok.inj (hxid.symm.trans hid)
  rw [BitVec.getLsbD, Nat.testBit_eq_decide_div_mod_eq, decide_eq_true_iff]
  omega

/-- Settles O50: SEND_MESSAGE is `sendTransfer` of a message to the unset node, and each clause is the outcome it names;
the corner cases are operands that are not accepted, the wrap of TID, and the example is one accepted frame. -/
theorem sendMessageCommand : Obligations.SendMessageCommand := by
  unfold Obligations.SendMessageCommand
  refine ⟨fun subject s => ⟨fun hmtu h => ?accepted, fun h => ?notAccepted, fun h hlen hover => ?oversized,
      fun h => ?corner⟩, encodedAs_of_opcodeRow (o := 0x41) rfl, fun subject s t hlast hexec hstatus => ?wrap,
    fun s hnode hmtu htid hprio hib => ?sample⟩
  case accepted =>
    obtain ⟨xid, fs, hxid, hfs, hne, hxids, hsend⟩ := State.sendTransfer_of_accepted hmtu h
    exact ⟨xid, fs, hxid, hfs, hne, hxids, by rw [exec_sendMessage, hsend]; rfl,
      makeCanId_message_anonymous_flag h hxid⟩
  case notAccepted => rw [exec_sendMessage, State.sendTransfer_of_not_accepted h]; rfl
  case oversized => rw [exec_sendMessage, State.sendTransfer_of_oversized h hlen hover]; rfl
  case corner =>
    have hnot : ¬idAccepted s.cfg.prioNominal .message subject 0xFF s.ib s.nodeId s.mtu := by
      obtain hsubject | ⟨hloc, hlen⟩ := h
      · rintro ⟨-, hport, -⟩
        omega
      · exact not_idAccepted_of_anonymous_multi hloc hlen
    rw [exec_sendMessage, State.sendTransfer_of_not_accepted hnot]
    rfl
  case wrap =>
    cases hexec
    rw [← nextTid_of_last hlast]
    exact State.sendTransfer_tid_of_ok hstatus
  case sample =>
    rw [exec_sendMessage, State.sendTransfer_of_ok (by rw [hprio, htid, hib, hnode, hmtu, createPacket_sample]), htid,
      nextTid_zero]
    rfl

/-! ### SEND_REQUEST and SEND_RESPONSE -/

theorem exec_sendRequest (dst : BitVec 8) (service : BitVec 16) (s : State) :
    exec (.sendRequest dst service) s = .next (s.sendTransfer .request service dst) := rfl

theorem exec_sendResponse (dst : BitVec 8) (service : BitVec 16) (s : State) :
    exec (.sendResponse dst service) s = .next (s.sendTransfer .response service dst) := rfl

theorem idAccepted_serviceKind {priority : BitVec 3} {req : Bool} {portId : BitVec 16} {remote loc : BitVec 8}
    {payload : List Byte} {mtu : BitVec 7} :
    idAccepted priority (serviceKind req) portId remote payload loc mtu ↔
      remote.toNat ≤ 127 ∧ portId.toNat ≤ 511 ∧ loc.toNat ≤ 127 := by
  cases req <;> exact Iff.rfl

/-- A service identifier that `make_can_id` gives, as the sum of its fields (42_can_id.md R141, R143). -/
theorem toNat_of_makeCanId_service {priority : BitVec 3} {req : Bool} {portId : BitVec 16} {remote loc : BitVec 8}
    {payload : List Byte} {mtu : BitVec 7} {xid : CanId}
    (h : makeCanId priority (serviceKind req) portId remote payload loc mtu = .ok xid) :
    portId.toNat ≤ 511 ∧ remote.toNat ≤ 127 ∧ loc.toNat ≤ 127 ∧ xid.toNat =
      priority.toNat * 2 ^ 26 + 2 ^ 25 + req.toNat * 2 ^ 24 + portId.toNat * 2 ^ 14 + remote.toNat * 2 ^ 7 +
        loc.toNat := by
  by_cases hvalid : remote.toNat ≤ 127 ∧ portId.toNat ≤ 511 ∧ loc.toNat ≤ 127
  · obtain ⟨hremote, hport, hloc⟩ := hvalid
    obtain ⟨id, hid, hvalue⟩ := makeCanId_service_of_valid priority req payload mtu hremote hport hloc
    obtain rfl : xid = id := Except.ok.inj (h.symm.trans hid)
    exact ⟨hport, hremote, hloc, hvalue⟩
  · rw [makeCanId_service_of_invalid priority req payload mtu (by omega)] at h
    cases h

/-- Bit 24 of a service identifier is the request flag (30_encoding.md R93). -/
theorem makeCanId_service_flag {priority : BitVec 3} {req : Bool} {portId : BitVec 16} {remote loc : BitVec 8}
    {payload : List Byte} {mtu : BitVec 7} {xid : CanId}
    (h : makeCanId priority (serviceKind req) portId remote payload loc mtu = .ok xid) : xid.getLsbD 24 = req := by
  obtain ⟨hport, hremote, hloc, hvalue⟩ := toNat_of_makeCanId_service h
  rw [BitVec.getLsbD, Nat.testBit_eq_decide_div_mod_eq, hvalue]
  cases req
  · rw [Bool.toNat_false, decide_eq_false_iff_not]; omega
  · rw [Bool.toNat_true, decide_eq_true_iff]; omega

/-- Setting bit 24 where it is clear adds its power of two. -/
theorem add_bit24_eq_or {x : CanId} (h : x.getLsbD 24 = false) : x + 1 <<< 24 = x ||| 1 <<< 24 :=
  BitVec.add_eq_or_of_and_eq_zero x (1 <<< 24) ((BitVec.and_twoPow x 24).trans (if_neg (by rw [h]; decide)))

/-- The identifiers of a request and of the response with the same fields differ in bit 24 alone. -/
theorem makeCanId_request_eq_response_or {priority : BitVec 3} {portId : BitVec 16} {remote loc : BitVec 8}
    {payload : List Byte} {mtu : BitVec 7} {a b : CanId}
    (ha : makeCanId priority .request portId remote payload loc mtu = .ok a)
    (hb : makeCanId priority .response portId remote payload loc mtu = .ok b) :
    a = b ||| (1 <<< 24) ∧ b.getLsbD 24 = false := by
  have flag : b.getLsbD 24 = false := makeCanId_service_flag (req := false) hb
  refine ⟨?_, flag⟩
  obtain ⟨-, -, -, hvalueA⟩ := toNat_of_makeCanId_service (req := true) ha
  obtain ⟨-, -, -, hvalueB⟩ := toNat_of_makeCanId_service (req := false) hb
  rw [Bool.toNat_true] at hvalueA
  rw [Bool.toNat_false] at hvalueB
  rw [← add_bit24_eq_or flag]
  have hbit : (1 <<< 24 : CanId).toNat = 2 ^ 24 := rfl
  apply BitVec.eq_of_toNat_eq
  rw [BitVec.toNat_add, hbit]
  omega

/-- Either service command is `sendTransfer` of its kind (R189, R190). -/
theorem exec_sendService {k : TransferKind} {dst : BitVec 8} {service : BitVec 16} {i : Instr}
    (h : (k = .request ∧ i = .sendRequest dst service) ∨ (k = .response ∧ i = .sendResponse dst service)) :
    ∃ req, k = serviceKind req ∧ ∀ s, exec i s = .next (s.sendTransfer k service dst) := by
  obtain ⟨rfl, rfl⟩ | ⟨rfl, rfl⟩ := h
  · exact ⟨true, rfl, exec_sendRequest dst service⟩
  · exact ⟨false, rfl, exec_sendResponse dst service⟩

theorem decide_serviceKind_eq_request (req : Bool) : decide (serviceKind req = .request) = req := by
  cases req <;> rfl

/-- The one frame of the example of R190. -/
theorem createPacket_response_sample : createPacket 4 .response 430 42 0 [] 7 8 =
    .ok [{ xid := 0x126B9507, len := 1, data := [0xE0, 0, 0, 0, 0, 0, 0, 0] }] := rfl

/-- The example of R189: 70 bytes from node 42 to node 7 take two frames. -/
theorem sendTransfer_request_sample {s : State} (hnode : s.nodeId = 42) (hmtu : s.mtu = 64) (htid : s.tid = 0)
    (hprio : s.cfg.prioNominal = 4) (hib : s.ib.length = 70) :
    (s.sendTransfer .request 430 7).res = 0x136B83AA00000002 ∧ (s.sendTransfer .request 430 7).out.length = 2 ∧
      (s.sendTransfer .request 430 7).tid = 1 := by
  have hlegal : legalMtu s.mtu.toNat = true := by rw [hmtu]; decide
  have haccepted : idAccepted s.cfg.prioNominal .request 430 7 s.ib s.nodeId s.mtu := by
    rw [hnode]; exact ⟨by decide, by decide, by decide⟩
  have hlen : presentationMtu s.mtu < s.ib.length := by rw [hmtu, hib]; decide
  obtain ⟨xid, fs, hxid, hfs, -, -, hsend⟩ := State.sendTransfer_of_accepted hlegal haccepted
  have hcount : fs.length = 2 := by
    rw [createPacket_length_of_multi hlegal hxid hfs hlen, hmtu, hib]; decide
  have hvalue : xid = 0x136B83AA := by
    obtain ⟨-, -, -, hvalue⟩ := toNat_of_makeCanId_service (req := true) hxid
    rw [hprio, hnode] at hvalue
    exact BitVec.eq_of_toNat_eq hvalue
  rw [hsend, hcount, hvalue, htid, nextTid_zero]
  exact ⟨rfl, by rw [State.succeed_out, List.length_map, hcount], rfl⟩

/-- Settles O51: either command is `sendTransfer` of its kind, and each clause is the outcome it names; the identifiers
of the two kinds differ by the flag of bit 24, and the examples are accepted operands. -/
theorem sendServiceCommands : Obligations.SendServiceCommands := by
  unfold Obligations.SendServiceCommands
  refine ⟨fun k dst service i s hi => ?outcomes, encodedAs_of_opcodeRow (o := 0x42) rfl,
    encodedAs_of_opcodeRow (o := 0x43) rfl, fun _ _ _ _ _ _ _ _ => makeCanId_request_eq_response_or,
    fun s hnode hmtu htid hprio hib => ?request, fun s hnode hmtu htid hprio hib => ?response⟩
  case outcomes =>
    obtain ⟨req, rfl, hexec⟩ := exec_sendService hi
    refine ⟨fun hmtu hdst hservice hnode => ?accepted, fun h => ?outOfRange,
      fun hdst hservice hnode hlen hover => ?oversized⟩
    case accepted =>
      obtain ⟨xid, fs, hxid, hfs, hne, hxids, hsend⟩ :=
        State.sendTransfer_of_accepted hmtu (idAccepted_serviceKind.mpr ⟨hdst, hservice, hnode⟩)
      exact ⟨xid, fs, hxid, hfs, hne, hxids, by rw [hexec, hsend]; rfl,
        by rw [decide_serviceKind_eq_request, makeCanId_service_flag hxid]⟩
    case outOfRange =>
      have hnot : ¬idAccepted s.cfg.prioNominal (serviceKind req) service dst s.ib s.nodeId s.mtu := by
        rw [idAccepted_serviceKind]; omega
      rw [hexec, State.sendTransfer_of_not_accepted hnot]
      rfl
    case oversized =>
      rw [hexec, State.sendTransfer_of_oversized (idAccepted_serviceKind.mpr ⟨hdst, hservice, hnode⟩) hlen hover]
      rfl
  case request =>
    have hlen : s.ib.length = 70 := by rw [hib, List.length_map, List.length_range]
    exact ⟨_, exec_sendRequest 7 430 s, sendTransfer_request_sample hnode hmtu htid hprio hlen⟩
  case response =>
    rw [exec_sendResponse,
      State.sendTransfer_of_ok (by rw [hprio, htid, hib, hnode, hmtu, createPacket_response_sample]), htid, nextTid_zero]
    rfl

end Sys2Proof.Machine

namespace Sys2Proof.Machine

/-! ## The frame parser (45_rx_parser.md R220 to R224) -/

/-! ### The header of a raw record (20_memory.md R53, R54) -/

/-- The declared length of the record at `b`, from the DLC in the low nibble of its byte 6 (R222). -/
abbrev declaredLen (ib : List Byte) (b : Nat) : Nat := dlcLen ((byteAt ib (b + 6)).toNat % 16)

theorem toNat_readField32 (ib : List Byte) (i : Nat) :
    (readField32 ib i).toNat = (byteAt ib i).toNat + (byteAt ib (i + 1)).toNat * 2 ^ 8 +
      (byteAt ib (i + 2)).toNat * 2 ^ 16 + (byteAt ib (i + 3)).toNat * 2 ^ 24 := by
  simp only [readField32, memRead, BitVec.toNat_ofNat, Nat.add_assoc, Nat.reduceAdd]
  omega

theorem toNat_canIdOf_readField32 (ib : List Byte) (i : Nat) :
    (canIdOf (readField32 ib i)).toNat = ((byteAt ib i).toNat + (byteAt ib (i + 1)).toNat * 2 ^ 8 +
      (byteAt ib (i + 2)).toNat * 2 ^ 16 + (byteAt ib (i + 3)).toNat * 2 ^ 24) % 2 ^ 29 := by
  rw [canIdOf, BitVec.toNat_setWidth, toNat_readField32]

theorem toNat_headerDlc_readField32 (ib : List Byte) (b : Nat) :
    (headerDlc (readField32 ib (b + 4))).toNat = (byteAt ib (b + 6)).toNat % 16 := by
  simp only [headerDlc, BitVec.extractLsb'_toNat, toNat_readField32, Nat.shiftRight_eq_div_pow, Nat.add_assoc,
    Nat.reduceAdd]
  omega

theorem dlcLen_headerDlc (ib : List Byte) (b : Nat) :
    dlcLen (headerDlc (readField32 ib (b + 4))).toNat = declaredLen ib b :=
  congrArg dlcLen (toNat_headerDlc_readField32 ib b)

/-- Bits [31:29] of the identifier field are not read (30_encoding.md R91). -/
theorem canIdOf_readField32_congr {ib ib' : List Byte} {b : Nat}
    (hlow : ∀ j, j < b + 3 → byteAt ib j = byteAt ib' j)
    (htop : (byteAt ib (b + 3)).extractLsb 4 0 = (byteAt ib' (b + 3)).extractLsb 4 0) :
    canIdOf (readField32 ib b) = canIdOf (readField32 ib' b) := by
  have htop' : (byteAt ib (b + 3)).toNat % 2 ^ 5 = (byteAt ib' (b + 3)).toNat % 2 ^ 5 := by
    simpa using congrArg BitVec.toNat htop
  apply BitVec.eq_of_toNat_eq
  rw [toNat_canIdOf_readField32, toNat_canIdOf_readField32, hlow b (by omega), hlow (b + 1) (by omega),
    hlow (b + 2) (by omega)]
  omega

/-- Only bits [19:16] of the header are read (R222). -/
theorem headerDlc_readField32_congr {ib ib' : List Byte} {b : Nat}
    (h : (byteAt ib (b + 6)).extractLsb 3 0 = (byteAt ib' (b + 6)).extractLsb 3 0) :
    headerDlc (readField32 ib (b + 4)) = headerDlc (readField32 ib' (b + 4)) := by
  apply BitVec.eq_of_toNat_eq
  rw [toNat_headerDlc_readField32, toNat_headerDlc_readField32]
  simpa using congrArg BitVec.toNat h

/-! ### `parse_record` (R222, R223) -/

theorem parseRecord_of_bad_length (msb : SubjectRxMsb) {ib : List Byte} {mtu b : Nat}
    (h : declaredLen ib b = 0 ∨ mtu < declaredLen ib b) : parseRecord msb ib mtu b = .error .invalidFrameLength := by
  rw [← dlcLen_headerDlc] at h
  exact if_pos h

/-- A declared length from 1 to MTU passes the check of R222. -/
theorem declaredLen_accepted {ib : List Byte} {mtu b : Nat} (hpos : 1 ≤ declaredLen ib b)
    (hle : declaredLen ib b ≤ mtu) :
    ¬(dlcLen (headerDlc (readField32 ib (b + 4))).toNat = 0 ∨
      dlcLen (headerDlc (readField32 ib (b + 4))).toNat > mtu) := by
  rw [dlcLen_headerDlc]
  omega

theorem exists_parseRecord_eq_ok (msb : SubjectRxMsb) {ib : List Byte} {mtu b : Nat} (hpos : 1 ≤ declaredLen ib b)
    (hle : declaredLen ib b ≤ mtu) : ∃ r, parseRecord msb ib mtu b = .ok r :=
  ⟨_, if_neg (declaredLen_accepted hpos hle)⟩

/-- Settles O53: the declared length decides between the error and the frame, whose identifier and DLC are the header's
fields byte by byte; the other fields are the definition's own. -/
theorem parseRecordReadsTheRecordFields : Obligations.ParseRecordReadsTheRecordFields := by
  unfold Obligations.ParseRecordReadsTheRecordFields
  intro msb ib mtu b _
  refine ⟨parseRecord_of_bad_length msb, fun hpos hle => ⟨_, if_neg (declaredLen_accepted hpos hle),
    toNat_canIdOf_readField32 ib b, toNat_headerDlc_readField32 ib b, rfl, rfl, rfl, ?payloadLen, rfl⟩⟩
  have hmax := dlcLen_le (headerDlc (readField32 ib (b + 4))).toNat
  exact Nat.mod_eq_of_lt (by omega)

/-- Sequences of one length that agree from `a` on have the same tail from `a` on. -/
theorem drop_eq_of_byteAt_eq {s s' : List Byte} {a : Nat} (hlen : s.length = s'.length)
    (h : ∀ j, a ≤ j → byteAt s j = byteAt s' j) : s.drop a = s'.drop a := by
  refine List.ext_getElem (by simp [hlen]) fun i hi hi' => ?_
  rw [List.length_drop] at hi hi'
  rw [List.getElem_drop, List.getElem_drop, ← byteAt_of_lt, ← byteAt_of_lt]
  exact h (a + i) (by omega)

/-- `parse_record` ignores identifier bits [31:29] and the header bits other than [19:16] (R224). -/
theorem parseRecord_congr (msb : SubjectRxMsb) {ib ib' : List Byte} (mtu : Nat) {b : Nat}
    (hlen : ib.length = ib'.length) (hsame : ∀ j, j < b + 3 ∨ b + 8 ≤ j → byteAt ib j = byteAt ib' j)
    (htop : (byteAt ib (b + 3)).extractLsb 4 0 = (byteAt ib' (b + 3)).extractLsb 4 0)
    (hdlc : (byteAt ib (b + 6)).extractLsb 3 0 = (byteAt ib' (b + 6)).extractLsb 3 0) :
    parseRecord msb ib mtu b = parseRecord msb ib' mtu b := by
  have hdata : ib.drop (b + 8) = ib'.drop (b + 8) := drop_eq_of_byteAt_eq hlen fun j hj => hsame j (.inr hj)
  have hxid := canIdOf_readField32_congr (fun j hj => hsame j (.inl hj)) htop
  simp only [parseRecord, slice, recordHeader, hxid, headerDlc_readField32_congr hdlc, hdata]
  split
  case isTrue => rfl
  case isFalse hlegal => rw [hsame _ (.inr (by omega))]

/-! ### `parse` (R221, R224): the records in order, all of them or none -/

/-- `n` records from record `j` on parse to a list of frames when record `j + i` parses to its frame `i`. -/
theorem parseRecords_eq_ok_iff {msb : SubjectRxMsb} {ib : List Byte} {mtu n j : Nat} {rs : List InboundFrame} :
    parseRecords msb ib mtu n j = .ok rs ↔ rs.length = n ∧
      ∀ (i : Nat) (h : i < rs.length), parseRecord msb ib mtu ((j + i) * recordSize mtu) = .ok rs[i] := by
  induction n generalizing j rs with
  | zero =>
    constructor
    · rintro ⟨⟩
      exact ⟨rfl, fun i h => absurd h (Nat.not_lt_zero i)⟩
    · rintro ⟨hlen, -⟩
      rw [List.eq_nil_of_length_eq_zero hlen]
      rfl
  | succ n ih =>
    rw [parseRecords_eq_ok_cons]
    constructor
    · rintro ⟨r, rest, hr, hrest, rfl⟩
      obtain ⟨hlen, hall⟩ := ih.mp hrest
      refine ⟨congrArg (· + 1) hlen, fun i h => ?_⟩
      cases i with
      | zero => exact hr
      | succ i =>
        rw [← Nat.add_assoc, Nat.add_right_comm]
        exact hall i (Nat.lt_of_succ_lt_succ h)
    · rintro ⟨hlen, hall⟩
      cases rs with
      | nil => cases hlen
      | cons r rest =>
        refine ⟨r, rest, hall 0 (Nat.zero_lt_succ _), ih.mpr ⟨Nat.succ.inj hlen, fun i h => ?_⟩, rfl⟩
        have hi := hall (i + 1) (Nat.succ_lt_succ h)
        rwa [← Nat.add_assoc, Nat.add_right_comm] at hi

/-- `parse` answers exactly the frames of a whole number of records, one per record and in their order. -/
theorem parseBuffer_eq_ok_iff {msb : SubjectRxMsb} {ib : List Byte} {mtu : Nat} {rs : List InboundFrame} :
    parseBuffer msb ib mtu = .ok rs ↔ ib.length % (mtu + 8) = 0 ∧ rs.length = ib.length / (mtu + 8) ∧
      ∀ (j : Nat) (h : j < rs.length), parseRecord msb ib mtu (j * (mtu + 8)) = .ok rs[j] := by
  unfold parseBuffer
  split
  case isTrue hmod =>
    rw [parseRecords_eq_ok_iff]
    simp only [Nat.zero_add]
    exact (and_iff_right hmod).symm
  case isFalse hmod => exact ⟨(nomatch ·), fun ⟨h, _⟩ => absurd h hmod⟩

/-- Where every record is legal, `parse` answers. -/
theorem exists_parseBuffer_eq_ok {msb : SubjectRxMsb} {ib : List Byte} {mtu : Nat} (hmod : ib.length % (mtu + 8) = 0)
    (h : ∀ j, j < ib.length / (mtu + 8) → ∃ r, parseRecord msb ib mtu (j * (mtu + 8)) = .ok r) :
    ∃ rs, parseBuffer msb ib mtu = .ok rs := by
  choose frame hframe using h
  refine ⟨List.ofFn fun j : Fin (ib.length / (mtu + 8)) => frame j j.isLt, parseBuffer_eq_ok_iff.mpr
    ⟨hmod, List.length_ofFn, fun j hj => ?_⟩⟩
  rw [List.getElem_ofFn, hframe]

/-- `parse` has one error. -/
theorem parseBuffer_eq_error {msb : SubjectRxMsb} {ib : List Byte} {mtu : Nat}
    (h : ∀ rs, parseBuffer msb ib mtu ≠ .ok rs) : parseBuffer msb ib mtu = .error .invalidFrameLength := by
  cases hr : parseBuffer msb ib mtu with
  | ok rs => exact absurd hr (h rs)
  | error e => rw [parseBuffer_error hr]

theorem parseBuffer_of_partial_record (msb : SubjectRxMsb) {ib : List Byte} {mtu : Nat}
    (h : ib.length % (mtu + 8) ≠ 0) : parseBuffer msb ib mtu = .error .invalidFrameLength := by
  refine parseBuffer_eq_error fun rs hok => ?_
  obtain ⟨hmod, -⟩ := parseBuffer_eq_ok_iff.mp hok
  exact h hmod

/-- One record that fails makes the whole sequence fail. -/
theorem parseBuffer_of_bad_record {msb : SubjectRxMsb} {ib : List Byte} {mtu j : Nat} {e : ErrorKind}
    (hj : j < ib.length / (mtu + 8)) (h : parseRecord msb ib mtu (j * (mtu + 8)) = .error e) :
    parseBuffer msb ib mtu = .error .invalidFrameLength := by
  refine parseBuffer_eq_error fun rs hok => ?_
  obtain ⟨-, hlen, hall⟩ := parseBuffer_eq_ok_iff.mp hok
  have hr := hall j (by omega)
  rw [h] at hr
  cases hr

theorem parseBuffer_nil (msb : SubjectRxMsb) (mtu : Nat) : parseBuffer msb [] mtu = .ok [] :=
  parseBuffer_eq_ok_iff.mpr ⟨Nat.zero_mod _, (Nat.zero_div _).symm, fun j h => absurd h (Nat.not_lt_zero j)⟩

/-! ### PARSE_BUFFER (R224) -/

theorem exec_parseBuffer (s : State) :
    exec .parseBuffer s = .next (s.finishRecords (parseBuffer s.cfg.subjectRxMsb s.ib s.mtu.toNat)) := rfl

theorem exec_parseBuffer_of_ok {s : State} {recs : List InboundFrame}
    (h : parseBuffer s.cfg.subjectRxMsb s.ib s.mtu.toNat = .ok recs) :
    exec .parseBuffer s =
      .next { s with status := 0, res := BitVec.ofNat 64 recs.length, out := recs.map OutRecord.inbound } := by
  rw [exec_parseBuffer, h]
  rfl

theorem exec_parseBuffer_of_error {s : State}
    (h : parseBuffer s.cfg.subjectRxMsb s.ib s.mtu.toNat = .error .invalidFrameLength) :
    exec .parseBuffer s = .next { s with status := 3, res := 0, out := [] } := by
  rw [exec_parseBuffer, h]
  rfl

/-- The example of R224, under either value of SUBJECT_RX_MSB. -/
theorem parseBuffer_sample (msb : SubjectRxMsb) :
    parseBuffer msb [0x0A, 0x64, 0x00, 0x10, 0, 0, 4, 0, 1, 2, 3, 0xE0, 0, 0, 0, 0] 8 =
      .ok [{ xid := 0x1000640A, priority := 4, kind := .message, portId := 100, sourceNodeId := 10
             destinationNodeId := 0xFF, transferId := 0, startBit := true, endBit := true, toggle := true
             frameType := .single, dlc := 4, payloadLen := 3, payload := [1, 2, 3, 0, 0, 0, 0, 0] }] := by
  cases msb <;> rfl

/-- Settles O54: PARSE_BUFFER ends as `parse` does, which answers when every record does and fails on a partial or a bad
record; the ignored bits are `parse_record`'s, and the empty input and the example are two answers of `parse`. -/
theorem parseBufferCommand : Obligations.ParseBufferCommand := by
  unfold Obligations.ParseBufferCommand
  refine ⟨fun s hmod hlegal => ?legal, fun s hmod => ?partialRecord, fun s j hj hbad => ?badRecord,
    encodedAs_of_opcodeRow (o := 0x50) rfl, fun msb _ _ mtu _ => parseRecord_congr msb mtu, fun s hib => ?empty,
    fun s hmtu hib => ?sample⟩
  case legal =>
    obtain ⟨recs, hrecs⟩ := exists_parseBuffer_eq_ok (msb := s.cfg.subjectRxMsb) hmod fun j hj =>
      have ⟨hpos, hle⟩ := hlegal j hj
      exists_parseRecord_eq_ok _ hpos hle
    obtain ⟨-, hlen, hall⟩ := parseBuffer_eq_ok_iff.mp hrecs
    exact ⟨recs, hlen, hall, exec_parseBuffer_of_ok hrecs⟩
  case partialRecord => exact exec_parseBuffer_of_error (parseBuffer_of_partial_record _ hmod)
  case badRecord =>
    exact exec_parseBuffer_of_error (parseBuffer_of_bad_record hj (parseRecord_of_bad_length _ hbad))
  case empty => exact exec_parseBuffer_of_ok (by rw [hib, parseBuffer_nil])
  case sample => exact exec_parseBuffer_of_ok (by rw [hmtu, hib]; exact parseBuffer_sample _)

end Sys2Proof.Machine

namespace Sys2Proof.Machine

/-! ## Configuration and state access (46_control.md R240 to R242) -/

/-! ### INIT -/

/-- INIT with an MTU of the legal set (R240). -/
theorem exec_init_of_mem {mtu : BitVec 16} (h : mtu.toNat ∈ legalMtus) (node : BitVec 8) (s : State) :
    exec (.init node mtu) s = .next { s.succeed 0 [] with nodeId := node, mtu := mtu.setWidth 7, tid := 0 } :=
  if_pos (List.contains_iff_mem.mpr h)

/-- INIT with any other MTU keeps NODE_ID, MTU and TID (R240). -/
theorem exec_init_of_not_mem {mtu : BitVec 16} (h : mtu.toNat ∉ legalMtus) (node : BitVec 8) (s : State) :
    exec (.init node mtu) s = .next (s.fail .invalidFrameSize) :=
  if_neg (mt List.contains_iff_mem.mp h)

/-- A legal MTU operand fits the seven bits of the register (10_state.md R22). -/
theorem toNat_setWidth_of_mem_legalMtus {mtu : BitVec 16} (h : mtu.toNat ∈ legalMtus) :
    (mtu.setWidth 7).toNat = mtu.toNat := by
  have hhigh : mtu.toNat ≤ 64 := (legalMtu_range (List.contains_iff_mem.mpr h)).2
  rw [BitVec.toNat_setWidth, Nat.mod_eq_of_lt (by omega)]

/-- Settles O57: the two outcomes of INIT by its MTU operand and its row of the opcode map; the refused values and the
example are operands of one case or the other. -/
theorem initCommand : Obligations.InitCommand := by
  unfold Obligations.InitCommand
  exact ⟨fun node mtu s h => ⟨mtu.setWidth 7, toNat_setWidth_of_mem_legalMtus h, exec_init_of_mem h node s⟩,
    fun node mtu s h => exec_init_of_not_mem h node s, encodedAs_of_opcodeRow (o := 0x70) rfl,
    fun node s => ⟨exec_init_of_not_mem (by decide) node s, exec_init_of_not_mem (by decide) node s⟩,
    fun s => exec_init_of_mem (mtu := 8) (by decide) 10 s⟩

/-! ### READ_STATE -/

theorem exec_readState (s : State) : exec .readState s = .next (s.succeed (stateRes s) []) := rfl

/-- RES of READ_STATE as the sum of R242: the three registers stand side by side, so `|||` adds them. -/
theorem toNat_stateRes (s : State) :
    (stateRes s).toNat = s.nodeId.toNat + s.mtu.toNat * 2 ^ 8 + s.tid.toNat * 2 ^ 16 := by
  have node : (s.nodeId.setWidth 64).toNat = s.nodeId.toNat :=
    BitVec.toNat_setWidth_of_le (by omega)
  have mtu : (s.mtu.setWidth 64 <<< 8).toNat = s.mtu.toNat * 2 ^ 8 := by
    rw [BitVec.toNat_shiftLeft, BitVec.toNat_setWidth, Nat.shiftLeft_eq]; omega
  have tid : (s.tid.setWidth 64 <<< 16).toNat = s.tid.toNat * 2 ^ 16 := by
    rw [BitVec.toNat_shiftLeft, BitVec.toNat_setWidth, Nat.shiftLeft_eq]; omega
  have low : (s.nodeId.setWidth 64 ||| s.mtu.setWidth 64 <<< 8).toNat = s.mtu.toNat * 2 ^ 8 + s.nodeId.toNat := by
    rw [BitVec.or_comm, toNat_or_eq_add 8 (by omega) (by omega), mtu, node]
  rw [stateRes, BitVec.or_comm, toNat_or_eq_add 16 (by omega) (by omega), tid, low]
  omega

/-- RES[7:0] of READ_STATE is NODE_ID. -/
theorem extractLsb_stateRes_nodeId (s : State) : (stateRes s).extractLsb 7 0 = s.nodeId := by
  apply BitVec.eq_of_toNat_eq
  rw [BitVec.extractLsb_toNat, toNat_stateRes, Nat.shiftRight_zero]
  omega

/-- RES[23:16] of READ_STATE is TID. -/
theorem extractLsb_stateRes_tid (s : State) : (stateRes s).extractLsb 23 16 = s.tid := by
  apply BitVec.eq_of_toNat_eq
  rw [BitVec.extractLsb_toNat, toNat_stateRes, Nat.shiftRight_eq_div_pow]
  omega

/-- Settles O59: READ_STATE's one outcome, with RES as a sum, and its row of the opcode map; RES[23:16] is TID, so it
exceeds 31 when TID does, and the other values are evaluations of RES. -/
theorem readStateCommand : Obligations.ReadStateCommand := by
  unfold Obligations.ReadStateCommand
  refine ⟨fun s => ⟨stateRes s, toNat_stateRes s, exec_readState s⟩, encodedAs_of_opcodeRow (o := 0x72) rfl, ?reset,
    ⟨{ State.reset with tid := 32 }, rfl, by decide, by decide, _, exec_readState _, ?wide⟩,
    fun s hnode hmtu htid => ?sample⟩
  case reset =>
    have value : stateRes State.reset = 0x000008FF := by decide
    rw [exec_readState, value]
    rfl
  case wide =>
    rw [State.succeed_res, extractLsb_stateRes_tid]
    decide
  case sample =>
    have value : stateRes s = 0x0002080A := by
      rw [stateRes, hnode, hmtu, htid]
      decide
    rw [exec_readState, value]
    rfl

/-! ### SET_NODE_ID, and what an anonymous node may send -/

theorem exec_setNodeId (node : BitVec 8) (s : State) :
    exec (.setNodeId node) s = .next { s.succeed 0 [] with nodeId := node } := rfl

/-- The next command sees the new NODE_ID (70_reset_and_hazards.md R306). -/
theorem nodeId_of_exec_setNodeId {node : BitVec 8} {s t : State} (h : exec (.setNodeId node) s = .next t) :
    t.nodeId = node := by
  cases h
  rfl

/-- An anonymous node sends no request and no response (42_can_id.md R143). -/
theorem State.sendTransfer_service_of_anonymous {s : State} (hnode : 128 ≤ s.nodeId.toNat) (req : Bool)
    (portId : BitVec 16) (remote : BitVec 8) :
    s.sendTransfer (serviceKind req) portId remote = s.fail .invalidCanId := by
  apply State.sendTransfer_of_not_accepted
  rw [idAccepted_serviceKind]
  omega

/-- A single frame fits whatever MTU holds, legal or not, if its rounded length does (44_fragmenter.md R182). -/
theorem createPacket_of_fits {priority : BitVec 3} {k : TransferKind} {portId : BitVec 16} {remote : BitVec 8}
    {payload : List Byte} {loc : BitVec 8} {mtu : BitVec 7} {xid : CanId} (tid : BitVec 8)
    (hxid : makeCanId priority k portId remote payload loc mtu = .ok xid)
    (hlen : payload.length ≤ presentationMtu mtu) (hfit : quantize (payload.length + 1) ≤ mtu.toNat) :
    ∃ f, createPacket priority k portId remote tid payload loc mtu = .ok [f] ∧ f.xid = xid := by
  have hmax : presentationMtu mtu ≤ 63 := presentationMtu_le mtu
  obtain ⟨f, hf, ⟨hfxid, -⟩, -⟩ := singleFrame_of_fits (xid := xid) (tid := tid) (payload := payload) (by omega) hfit
  exact ⟨f, by rw [createPacket, hxid]; simp only [if_pos hlen, hf], hfxid⟩

/-- A message that an anonymous node sends is one frame, whose identifier has the anonymous flag (42_can_id.md R143). -/
theorem createPacket_of_anonymous_ok {priority : BitVec 3} {portId : BitVec 16} {remote tid loc : BitVec 8}
    {payload : List Byte} {mtu : BitVec 7} {fs : List OutboundFrame} (hloc : 128 ≤ loc.toNat)
    (h : createPacket priority .message portId remote tid payload loc mtu = .ok fs) :
    ∃ f, fs = [f] ∧ f.xid.getLsbD 24 = true := by
  by_cases haccepted : idAccepted priority .message portId remote payload loc mtu
  case neg => rw [createPacket_of_not_accepted tid haccepted] at h; cases h
  have hlen : payload.length ≤ presentationMtu mtu :=
    Nat.not_lt.mp fun hmulti => not_idAccepted_of_anonymous_multi hloc hmulti haccepted
  by_cases hfit : quantize (payload.length + 1) ≤ mtu.toNat
  case neg => rw [createPacket_of_oversized tid haccepted hlen (Nat.not_le.mp hfit)] at h; cases h
  obtain ⟨xid, hxid⟩ := makeCanId_of_accepted haccepted
  obtain ⟨f, hf, rfl⟩ := createPacket_of_fits tid hxid hlen hfit
  exact ⟨f, Except.ok.inj (h.symm.trans hf), makeCanId_message_anonymous_flag haccepted hxid hloc⟩

/-- RES of one frame has the identifier from bit 32 on, so its bit 24 at bit 56 (30_encoding.md R100). -/
theorem framesRes_singleton_getLsbD_flag (f : OutboundFrame) : (framesRes [f]).getLsbD 56 = f.xid.getLsbD 24 := by
  simp [framesRes, firstXid]

/-- A message that an anonymous node sends shows the anonymous flag in RES. -/
theorem State.sendTransfer_message_flag_of_anonymous {s : State} {subject : BitVec 16} {remote : BitVec 8}
    (hnode : 128 ≤ s.nodeId.toNat) (hstatus : (s.sendTransfer .message subject remote).status = 0) :
    (s.sendTransfer .message subject remote).res.getLsbD 56 = true := by
  obtain ⟨fs, hfs, hsend⟩ | ⟨e, -, hsend⟩ := s.sendTransfer_cases .message subject remote
  · obtain ⟨f, rfl, hflag⟩ := createPacket_of_anonymous_ok hnode hfs
    rw [hsend, State.succeed_res, framesRes_singleton_getLsbD_flag, hflag]
  · rw [hsend, State.fail_status] at hstatus
    exact absurd hstatus (errorCode_ne_ok e)

/-- Settles O58: SET_NODE_ID's one outcome and its row of the opcode map; the next command sees the new NODE_ID, so an
anonymous one shuts out the service commands and flags a message, and READ_STATE returns it. -/
theorem setNodeIdCommand : Obligations.SetNodeIdCommand := by
  unfold Obligations.SetNodeIdCommand
  refine ⟨exec_setNodeId, encodedAs_of_opcodeRow (o := 0x71) rfl, fun node s t dst port hanonymous hexec => ?anonymous,
    fun node s t hexec => ?readBack, exec_setNodeId 5⟩
  case anonymous =>
    have hnode : 128 ≤ t.nodeId.toNat := by rw [nodeId_of_exec_setNodeId hexec]; exact hanonymous
    refine ⟨?_, ?_, fun u hsend hstatus => ?_⟩
    · exact congrArg Host.Outcome.next (State.sendTransfer_service_of_anonymous hnode true port dst)
    · exact congrArg Host.Outcome.next (State.sendTransfer_service_of_anonymous hnode false port dst)
    · cases hsend
      exact State.sendTransfer_message_flag_of_anonymous hnode hstatus
  case readBack =>
    refine ⟨_, exec_readState t, ?_⟩
    rw [State.succeed_res, extractLsb_stateRes_nodeId, nodeId_of_exec_setNodeId hexec]

end Sys2Proof.Machine

namespace Sys2Proof.Machine

/-! ## What a failed command leaves unchanged (60_exceptions.md R262)

Each ending of a command either succeeds, with STATUS 0, or is the block's one error entry `State.fail`, which keeps every
other register. -/

theorem State.finish_ok_or_fail (s : State) (r : Except ErrorKind (BitVec 64)) :
    (s.finish r).status = 0 ∨ ∃ e, s.finish r = s.fail e :=
  (s.finish_cases r).imp (fun ⟨_, _, hs⟩ => congrArg State.status hs) fun ⟨e, _, hs⟩ => ⟨e, hs⟩

theorem State.finishFrames_ok_or_fail (s : State) (r : Except ErrorKind (List OutboundFrame)) :
    (s.finishFrames r).status = 0 ∨ ∃ e, s.finishFrames r = s.fail e :=
  (s.finishFrames_cases r).imp (fun ⟨_, _, hs⟩ => congrArg State.status hs) fun ⟨e, _, hs⟩ => ⟨e, hs⟩

/-- A PARSE_BUFFER whose third record fails returns no records. -/
theorem State.finishRecords_ok_or_fail (s : State) (r : Except ErrorKind (List InboundFrame)) :
    (s.finishRecords r).status = 0 ∨ ∃ e, s.finishRecords r = s.fail e :=
  (s.finishRecords_cases r).imp (fun ⟨_, _, hs⟩ => congrArg State.status hs) fun ⟨e, _, hs⟩ => ⟨e, hs⟩

/-- A SEND_* that fails does not advance TID. -/
theorem State.sendTransfer_ok_or_fail (s : State) (k : TransferKind) (portId : BitVec 16) (remote : BitVec 8) :
    (s.sendTransfer k portId remote).status = 0 ∨ ∃ e, s.sendTransfer k portId remote = s.fail e :=
  (s.sendTransfer_cases k portId remote).imp (fun ⟨_, _, hs⟩ => congrArg State.status hs) fun ⟨e, _, hs⟩ => ⟨e, hs⟩

/-- INIT writes NODE_ID, MTU and TID only with a legal MTU. -/
theorem execInit_ok_or_fail {node : BitVec 8} {mtu : BitVec 16} {s t : State} (h : execInit node mtu s = .next t) :
    t.status = 0 ∨ ∃ e, t = s.fail e := by
  unfold execInit at h
  split at h <;> cases h
  case isTrue => exact .inl rfl
  case isFalse => exact .inr ⟨_, rfl⟩

theorem execMakeCanId_ok_or_fail {localNode remoteNode : BitVec 8} {portId : BitVec 16} {priority : BitVec 3}
    {kind : BitVec 2} {s t : State} (h : execMakeCanId localNode remoteNode portId priority kind s = .next t) :
    t.status = 0 ∨ ∃ e, t = s.fail e := by
  unfold execMakeCanId at h
  split at h <;> cases h
  case h_1 => exact .inr ⟨_, rfl⟩
  case h_2 => exact s.finish_ok_or_fail _

theorem execCreatePacket_ok_or_fail {tid remoteNode : BitVec 8} {portId : BitVec 16} {priority : BitVec 3}
    {kind : BitVec 2} {s t : State} (h : execCreatePacket tid remoteNode portId priority kind s = .next t) :
    t.status = 0 ∨ ∃ e, t = s.fail e := by
  unfold execCreatePacket at h
  split at h <;> cases h
  case h_1 => exact .inr ⟨_, rfl⟩
  case h_2 => exact s.finishFrames_ok_or_fail _

/-- Every command succeeds, or its next state is `State.fail` of some error. -/
theorem exec_ok_or_fail {i : Instr} {s t : State} (h : exec i s = .next t) : t.status = 0 ∨ ∃ e, t = s.fail e := by
  cases i with
  | crcUpdate | decodeTail | unpackId | setNodeId | readState => cases h; exact .inl rfl
  | crcCompute | dlcToLen | lenToDlc | roundUpLen | makeMessageId | makeServiceId | makeTail =>
    cases h; exact s.finish_ok_or_fail _
  | sendMessage | sendRequest | sendResponse => cases h; exact s.sendTransfer_ok_or_fail _ _ _
  | parseBuffer => cases h; exact s.finishRecords_ok_or_fail _
  | makeCanId => exact execMakeCanId_ok_or_fail h
  | createPacket => exact execCreatePacket_ok_or_fail h
  | init => exact execInit_ok_or_fail h

/-- A command that raises an error ends in `State.fail`. -/
theorem exec_eq_fail_of_status_ne_ok {i : Instr} {s t : State} (h : exec i s = .next t) (hstatus : t.status ≠ 0) :
    ∃ e, t = s.fail e :=
  (exec_ok_or_fail h).resolve_left hstatus

/-- A failed step on an issued command, decoded or rejected, is `State.fail` of the state before the issue: retiring the
host's move takes back the issue. -/
theorem step_issue_eq_fail_of_status_ne_ok {s t : State} {w : CommandWord} {ib : List Byte}
    (h : step (s.issue w ib) = .next t) (hstatus : t.status ≠ 0) : ∃ e, t = s.fail e := by
  obtain ⟨hport, -⟩ | ⟨_, hport, -⟩ | ⟨_, _, _, i, u, -, -, -, hexec, rfl⟩ | ⟨_, _, _, _, -, -, -, rfl⟩ := step_cases h
  case inl => cases hport
  case inr.inl => cases hport
  case inr.inr.inl =>
    obtain ⟨e, rfl⟩ := exec_eq_fail_of_status_ne_ok hexec hstatus
    exact ⟨e, rfl⟩
  case inr.inr.inr => exact ⟨.illegalCommand, rfl⟩

/-- Settles O7: a failed command, and a failed step on an issued word, is `State.fail`, which writes STATUS, RES and OUT
alone; the code is one of the command's row. -/
theorem failedCommandChangesOnlyResults : Obligations.FailedCommandChangesOnlyResults := by
  unfold Obligations.FailedCommandChangesOnlyResults
  refine ⟨fun i s t hexec hstatus => ⟨?command, exec_status_mem_allowedCodes hexec⟩,
    fun s t w ib hstep hstatus => ?issued⟩
  case command =>
    obtain ⟨e, rfl⟩ := exec_eq_fail_of_status_ne_ok hexec hstatus
    rfl
  case issued =>
    obtain ⟨e, rfl⟩ := step_issue_eq_fail_of_status_ne_ok hstep hstatus
    rfl

end Sys2Proof.Machine

namespace Sys2Proof.Machine

/-! ## Encoding and decoding are inverse (30_encoding.md R80 to R89) -/

/-- The per-command law `EncodingFitsRow` for every command. -/
theorem encodingFitsRow : ∀ i : Instr, Laws.EncodingFitsRow.Statement i
  | .crcUpdate byte crc => Laws.EncodingFitsRow.crcUpdate byte crc
  | .crcCompute initial declared => Laws.EncodingFitsRow.crcCompute initial declared
  | .dlcToLen dlc => Laws.EncodingFitsRow.dlcToLen dlc
  | .lenToDlc n => Laws.EncodingFitsRow.lenToDlc n
  | .roundUpLen n => Laws.EncodingFitsRow.roundUpLen n
  | .makeMessageId src subject => Laws.EncodingFitsRow.makeMessageId src subject
  | .makeServiceId src dst service isRequest => Laws.EncodingFitsRow.makeServiceId src dst service isRequest
  | .makeCanId loc remote portId priority kind => Laws.EncodingFitsRow.makeCanId loc remote portId priority kind
  | .unpackId id => Laws.EncodingFitsRow.unpackId id
  | .makeTail tid startBit endBit toggle => Laws.EncodingFitsRow.makeTail tid startBit endBit toggle
  | .decodeTail tail => Laws.EncodingFitsRow.decodeTail tail
  | .createPacket tid remote portId priority kind =>
      Laws.EncodingFitsRow.createPacket tid remote portId priority kind
  | .sendMessage subject => Laws.EncodingFitsRow.sendMessage subject
  | .sendRequest dst service => Laws.EncodingFitsRow.sendRequest dst service
  | .sendResponse dst service => Laws.EncodingFitsRow.sendResponse dst service
  | .parseBuffer => Laws.EncodingFitsRow.parseBuffer
  | .init node mtu => Laws.EncodingFitsRow.init node mtu
  | .setNodeId node => Laws.EncodingFitsRow.setNodeId node
  | .readState => Laws.EncodingFitsRow.readState

/-- Settles O14: the encoded word fits the row of its opcode, and the row builds the command back. -/
theorem encodedCommandsDecodeBack : Obligations.EncodedCommandsDecodeBack := by
  unfold Obligations.EncodedCommandsDecodeBack
  intro i hwf
  obtain ⟨row, hrow, hmask, hbuild⟩ := encodingFitsRow i
  exact decode_eq_command_iff.mpr ⟨row, hrow, hmask, hbuild, hwf⟩

/-! ### A word is its fields -/

/-- `F = CW[47:45]`, the three flag bits together (30_encoding.md R80, R86). -/
def fieldF (w : CommandWord) : BitVec 3 := w.extractLsb' 45 3

theorem flagField_of_fieldF (w : CommandWord) : flagField (fieldF2 w) (fieldF1 w) (fieldF0 w) = fieldF w := by
  apply BitVec.eq_of_getLsbD_eq
  intro j hj
  rw [fieldF, BitVec.getLsbD_extractLsb', decide_eq_true hj, Bool.true_and]
  obtain rfl | rfl | rfl : j = 0 ∨ j = 1 ∨ j = 2 := by omega
  all_goals
    simp only [fieldF0, fieldF1, fieldF2, Nat.reduceAdd]
    cases w.getLsbD 47 <;> cases w.getLsbD 46 <;> cases w.getLsbD 45 <;> rfl

/-- MAKE_SERVICE_ID uses F0 alone of the three flag bits (30_encoding.md R82). -/
theorem flagField_of_fieldF0 (w : CommandWord) : flagField false false (fieldF0 w) = fieldF w &&& 1 := by
  rw [← flagField_of_fieldF]
  cases fieldF2 w <;> cases fieldF1 w <;> cases fieldF0 w <;> rfl

/-- Format R lays all 64 bits out as fields (30_encoding.md R80). -/
theorem assembleR_fields (w : CommandWord) :
    assembleR (fieldL w) (fieldF w) (fieldKind w) (fieldPri w) (fieldP w) (fieldB w) (fieldA w) (fieldOpc w) = w := by
  rw [assembleR, fieldL, fieldF, BitVec.extractLsb'_append_extractLsb'_eq_extractLsb' (by decide), fieldKind,
    BitVec.extractLsb'_append_extractLsb'_eq_extractLsb' (by decide), fieldPri,
    BitVec.extractLsb'_append_extractLsb'_eq_extractLsb' (by decide), fieldP,
    BitVec.extractLsb'_append_extractLsb'_eq_extractLsb' (by decide), fieldB,
    BitVec.extractLsb'_append_extractLsb'_eq_extractLsb' (by decide), fieldA,
    BitVec.extractLsb'_append_extractLsb'_eq_extractLsb' (by decide), fieldOpc,
    BitVec.extractLsb'_append_extractLsb'_eq_extractLsb' (by decide)]
  exact BitVec.extractLsb'_eq_self

/-- The field X of format X is P, B and A of format R (30_encoding.md R81). -/
theorem assembleX_fieldX (w : CommandWord) (o : BitVec 8) :
    assembleX (fieldX w) o = assembleR 0 0 0 0 (fieldP w) (fieldB w) (fieldA w) o := by
  have hx : fieldX w = fieldP w ++ fieldB w ++ fieldA w := by
    rw [fieldP, fieldB, BitVec.extractLsb'_append_extractLsb'_eq_extractLsb' (by decide), fieldA,
      BitVec.extractLsb'_append_extractLsb'_eq_extractLsb' (by decide), fieldX]
  apply BitVec.eq_of_toNat_eq
  simp only [hx, assembleX, assembleR, toNat_append_eq_add]
  simp

/-- A field of a word that is `w` outside a mask and `pattern` under it. -/
theorem extractLsb'_merge (w mask pattern : CommandWord) {lo n : Nat} (h : lo + n ≤ 64) :
    (w &&& ~~~mask ||| pattern).extractLsb' lo n =
      w.extractLsb' lo n &&& ~~~mask.extractLsb' lo n ||| pattern.extractLsb' lo n := by
  apply BitVec.eq_of_getLsbD_eq
  intro j hj
  have hbit : lo + j < 64 := by omega
  simp [hj, hbit]

/-- A word is assembled from the fields of `w` outside a mask, and from those of a pattern under it. -/
theorem assembleR_eq_merge {w mask pattern : CommandWord} {l : BitVec 16} {f : BitVec 3} {k : BitVec 2}
    {pr : BitVec 3} {p : BitVec 16} {b a o : BitVec 8}
    (hl : l = fieldL w &&& ~~~fieldL mask ||| fieldL pattern) (hf : f = fieldF w &&& ~~~fieldF mask ||| fieldF pattern)
    (hk : k = fieldKind w &&& ~~~fieldKind mask ||| fieldKind pattern)
    (hpr : pr = fieldPri w &&& ~~~fieldPri mask ||| fieldPri pattern)
    (hp : p = fieldP w &&& ~~~fieldP mask ||| fieldP pattern)
    (hb : b = fieldB w &&& ~~~fieldB mask ||| fieldB pattern)
    (ha : a = fieldA w &&& ~~~fieldA mask ||| fieldA pattern)
    (ho : o = fieldOpc w &&& ~~~fieldOpc mask ||| fieldOpc pattern) :
    assembleR l f k pr p b a o = w &&& ~~~mask ||| pattern := by
  rw [← assembleR_fields (w &&& ~~~mask ||| pattern), hl, hf, hk, hpr, hp, hb, ha, ho]
  simp only [fieldL, fieldF, fieldKind, fieldPri, fieldP, fieldB, fieldA, fieldOpc]
  rw [extractLsb'_merge, extractLsb'_merge, extractLsb'_merge, extractLsb'_merge, extractLsb'_merge, extractLsb'_merge,
    extractLsb'_merge, extractLsb'_merge] <;> decide

theorem and_full {n : Nat} (x : BitVec n) {m : BitVec n} (h : m = BitVec.allOnes n) : x &&& m = x := by
  rw [h, BitVec.and_allOnes]

/-- The word of the command that a row builds from `w`: the row's operand fields are those of `w`, and every bit of its
mask is that of its `match` column, whether or not `w` meets them (30_encoding.md R82, R83). -/
theorem encode_build {o : BitVec 8} {row : OpcodeRow} (h : opcodeRow o = some row) (w : CommandWord) :
    encode (row.build w) = w &&& ~~~row.mask ||| row.pattern := by
  unfold opcodeRow at h
  split at h <;> cases h
  case h_9 => -- UNPACK_ID, the one row of format X
    refine (assembleX_fieldX w 0x23).trans (assembleR_eq_merge ?_ ?_ ?_ ?_ ?_ ?_ ?_ ?_)
    all_goals simp [fieldL, fieldF, fieldKind, fieldPri, fieldP, fieldB, fieldA, fieldOpc, and_full]
  all_goals
    refine assembleR_eq_merge ?_ ?_ ?_ ?_ ?_ ?_ ?_ ?_
    all_goals simp [fieldL, fieldF, fieldKind, fieldPri, fieldP, fieldB, fieldA, fieldOpc, and_full,
      flagField_of_fieldF, flagField_of_fieldF0]

/-- A word that agrees with a pattern under a mask is not changed by writing the pattern there. -/
theorem merge_of_masked {w mask pattern : CommandWord} (h : w &&& mask = pattern) :
    w &&& ~~~mask ||| pattern = w := by
  rw [← h, ← BitVec.and_or_distrib_left, BitVec.not_or_self, BitVec.and_allOnes]

/-- Settles O15: the row of a word that decodes builds the command, and re-encoding keeps the row's operand fields and
writes the reserved bits the word already has. -/
theorem decodedWordsEncodeBack : Obligations.DecodedWordsEncodeBack := by
  unfold Obligations.DecodedWordsEncodeBack
  intro w i hdecode
  obtain ⟨row, hrow, hmask, rfl, hwf⟩ := decode_eq_command_iff.mp hdecode
  exact ⟨by rw [encode_build hrow, merge_of_masked hmask], hwf⟩

end Sys2Proof.Machine

namespace Sys2Proof.Machine

/-! ## Tables and single functions: sample words, CRC chaining, DLC tables, tail bytes, the single-frame path -/

/-- Settles O16: each word decodes by evaluation. -/
theorem sampleWordsDecode : Obligations.SampleWordsDecode := by
  unfold Obligations.SampleWordsDecode
  decide

/-! ### CRC chaining (40_crc.md R122) -/

theorem crcFold_append (c : CrcState) (x y : List Byte) : crcFold c (x ++ y) = crcFold (crcFold c x) y := by
  simp only [crcFold_eq_foldl, List.foldl_append]

/-- Settles O23: the fold over a concatenation is the fold over its second part from the state after its first. -/
theorem crcChains : Obligations.CrcChains := by
  unfold Obligations.CrcChains
  intro c m x y h
  rw [crcCompute_of_length_eq rfl] at h
  cases h
  rw [crcCompute_of_length_eq rfl, crcCompute_of_length_eq rfl, List.foldl_append]

/-! ### The DLC tables (41_dlc.md R130 to R132) -/

theorem lenDlc_le (n : Nat) (h : n ≤ 64) : lenDlc n ≤ 15 := by
  have table : ∀ n < 65, lenDlc n ≤ 15 := by decide
  exact table n (by omega)

/-- The ranges of R131. -/
theorem lenDlc_eq {n : Nat} (h : n ≤ 64) : lenDlc n =
    if n ≤ 8 then n else if n ≤ 12 then 9 else if n ≤ 16 then 10 else if n ≤ 20 then 11 else if n ≤ 24 then 12
      else if n ≤ 32 then 13 else if n ≤ 48 then 14 else 15 := by
  have table : ∀ n < 65, lenDlc n =
    if n ≤ 8 then n else if n ≤ 12 then 9 else if n ≤ 16 then 10 else if n ≤ 20 then 11 else if n ≤ 24 then 12
      else if n ≤ 32 then 13 else if n ≤ 48 then 14 else 15 := by decide
  exact table n (by omega)

/-- The lengths of those ranges (R132). -/
theorem quantize_eq {n : Nat} (h : n ≤ 64) : quantize n =
    if n ≤ 8 then n else if n ≤ 12 then 12 else if n ≤ 16 then 16 else if n ≤ 20 then 20 else if n ≤ 24 then 24
      else if n ≤ 32 then 32 else if n ≤ 48 then 48 else 64 := by
  have table : ∀ n < 65, quantize n =
    if n ≤ 8 then n else if n ≤ 12 then 12 else if n ≤ 16 then 16 else if n ≤ 20 then 20 else if n ≤ 24 then 24
      else if n ≤ 32 then 32 else if n ≤ 48 then 48 else 64 := by decide
  exact table n (by omega)

/-- Settles O25: the length table by evaluation, and LEN_TO_DLC the least DLC that fits; the ranges cover 0 to 64. -/
theorem lenToDlcIsTheLeastFittingDlc : Obligations.LenToDlcIsTheLeastFittingDlc := by
  unfold Obligations.LenToDlcIsTheLeastFittingDlc
  refine ⟨rfl, fun n h => ⟨lenDlc_le n h, le_quantize n h, fun d => dlcLen_lt_of_lt_lenDlc h⟩, fun n => ?ranges⟩
  by_cases h : n ≤ 64
  · rw [lenDlc_eq h]
    split_ifs <;> omega
  · omega

/-- The tables invert each other on the sixteen DLCs (R136). -/
theorem lenDlc_dlcLen {d : Nat} (h : d ≤ 15) : lenDlc (dlcLen d) = d := by
  have table : ∀ d < 16, lenDlc (dlcLen d) = d := by decide
  exact table d (by omega)

/-- The lengths of the table are what rounding up leaves. -/
theorem quantize_dlcLen {d : Nat} (h : d ≤ 15) : quantize (dlcLen d) = dlcLen d := by
  rw [quantize, lenDlc_dlcLen h]

/-- No frame length that fits is shorter than the rounded one. -/
theorem quantize_le_dlcLen {n d : Nat} (hd : d ≤ 15) (h : n ≤ dlcLen d) : quantize n ≤ dlcLen d :=
  (quantize_mono h (dlcLen_le d)).trans_eq (quantize_dlcLen hd)

/-- Settles O26: rounding up is the look-up of the least fitting DLC's length, with the values of R132 read from the
ranges of LEN_TO_DLC. -/
theorem roundingGivesTheLeastFrameLength : Obligations.RoundingGivesTheLeastFrameLength := by
  unfold Obligations.RoundingGivesTheLeastFrameLength
  refine ⟨fun n => roundUpFrameLength_of_gt, fun n h => ⟨quantize n, roundUpFrameLength_of_le h, rfl, le_quantize n h,
    ⟨lenDlc n, lenDlc_le n h, rfl⟩, fun d => quantize_le_dlcLen, ?values⟩,
    fun d h => ⟨by rw [roundUpFrameLength_of_le (dlcLen_le d), quantize_dlcLen h], lenDlc_dlcLen h⟩⟩
  rw [quantize_eq h]
  split_ifs <;> omega

/-! ### Tail bytes (43_tail_byte.md R170, R172) -/

/-- The byte that `make_tail_byte` lays out decodes to its flags and the low five bits of the transfer-id. -/
theorem decodeTail_tailLayout (startBit endBit toggle : Bool) (tid : BitVec 8) :
    decodeTail (BitVec.ofBool startBit ++ BitVec.ofBool endBit ++ BitVec.ofBool toggle ++ tid.extractLsb' 0 5) =
      ⟨startBit, endBit, toggle, tid.extractLsb 4 0⟩ := by
  rw [decodeTail, BitVec.extractLsb'_append_eq_of_add_le (by decide), BitVec.extractLsb'_eq_self]
  simp only [BitVec.getLsbD_append]
  cases startBit <;> cases endBit <;> cases toggle <;> rfl

/-- A tail byte that `make_tail_byte` gave decodes to its fields. -/
theorem decodeTail_of_makeTailByte {startBit endBit toggle : Bool} {tid : BitVec 8} {t : Byte}
    (h : makeTailByte startBit endBit toggle tid = .ok t) :
    decodeTail t = ⟨startBit, endBit, toggle, tid.extractLsb 4 0⟩ := by
  obtain ⟨-, -, herror⟩ | ⟨-, hok⟩ := makeTailByte_cases startBit endBit toggle tid
  · rw [h] at herror; cases herror
  · obtain rfl : t = _ := Except.ok.inj (h.symm.trans hok)
    exact decodeTail_tailLayout startBit endBit toggle tid

/-- Settles O42: a tail byte that is built decodes to its fields, and a transfer-id up to 31 is its own low five bits.
-/
theorem tailBytesRoundTrip : Obligations.TailBytesRoundTrip := by
  unfold Obligations.TailBytesRoundTrip
  intro startBit endBit toggle tid htid hlegal
  obtain ⟨t, ht⟩ := exists_makeTailByte_eq_ok (startBit := startBit) (toggle := toggle)
    (by simpa using hlegal) endBit tid
  refine ⟨t, ht, ?_⟩
  rw [decodeTail_of_makeTailByte ht]
  refine ⟨rfl, rfl, rfl, ?_⟩
  rw [BitVec.extractLsb_toNat, Nat.shiftRight_zero, Nat.mod_eq_of_lt (by omega)]

/-! ### The presentation-layer MTU and the single-frame path (44_fragmenter.md R180, R182) -/

/-- Settles O43: the argument of the rounding is from 8 to 64, so it is rounded to a positive length; a legal MTU is a
frame length and rounding leaves it. -/
theorem presentationMtuIsMtuLessOne : Obligations.PresentationMtuIsMtuLessOne := by
  unfold Obligations.PresentationMtuIsMtuLessOne
  refine ⟨fun mtu => ?total, fun mtu h => ⟨presentationMtu_of_legal h, ?values⟩⟩
  case total =>
    have hround := le_quantize (min (max mtu.toNat 8) 64) (by omega)
    rw [roundUpFrameLength_of_le (by omega), presentationMtu, Nat.sub_add_cancel (by omega)]
  case values =>
    rw [presentationMtu_of_legal h]
    obtain h | h | h | h | h | h | h | h := (legalMtu_iff _).mp h
    all_goals rw [h]; decide

theorem singleFrame_of_round {xid : CanId} {tid : BitVec 8} {payload : List Byte} {mtu lf : Nat} {t : Byte}
    (hround : roundUpFrameLength (payload.length + 1) = .ok lf) (hfit : lf ≤ mtu)
    (ht : makeTailByte true true true tid = .ok t) : singleFrame xid tid payload mtu =
      .ok [frameOf xid lf (payload ++ zeros (lf - 1 - payload.length)) t (mtu - lf)] := by
  rw [singleFrame, hround]
  simp only [if_neg (Nat.not_lt.mpr hfit), initialToggle, ht, frameOf]

/-- Settles O44: the frame that fits, and InvalidFrameSize when the rounded length exceeds MTU or does not exist;
under a legal MTU a payload of at most the presentation MTU fits. -/
theorem singleFramePathFillsOneFrame : Obligations.SingleFramePathFillsOneFrame := by
  unfold Obligations.SingleFramePathFillsOneFrame
  refine ⟨fun xid tid payload mtu lf hround hfit => ?fits, fun xid tid payload mtu lf hround hover => ?oversized,
    fun xid tid payload mtu hlong => ?noLength, fun xid tid payload mtu hmtu hlen => ?legal⟩
  case fits =>
    obtain ⟨t, ht⟩ := exists_makeTailByte_eq_ok (startBit := true) (toggle := true) (fun _ => rfl) true tid
    exact ⟨t, ht, singleFrame_of_round hround hfit ht⟩
  case oversized =>
    rw [singleFrame, hround]
    exact if_pos hover
  case noLength => rw [singleFrame, roundUpFrameLength_of_gt hlong]
  case legal =>
    have hmax : presentationMtu mtu ≤ 63 := presentationMtu_le mtu
    obtain ⟨f, hf, -⟩ := singleFrame_of_fits (xid := xid) (tid := tid) (payload := payload) (by omega)
      (quantize_succ_le_mtu hmtu hlen)
    rw [hf]
    exact nofun

end Sys2Proof.Machine

namespace Sys2Proof.Machine

/-! ## What every command does (60_exceptions.md R262, 10_state.md R21 to R27)

Each command computes an answer, RES and OUT or an error, and writes it the same way; only the SEND_* commands, INIT
and SET_NODE_ID also write NODE_ID, MTU or TID, and only when they succeed. `exec_eq` says so once for all nineteen,
and what follows about every command is read off its two parts. -/

/-- The answer of a command whose result is one scalar and no records. -/
def scalarAnswer (r : Except ErrorKind (BitVec 64)) : Except ErrorKind (BitVec 64 × List OutRecord) :=
  r.map fun v => (v, [])

/-- The answer of a command that makes frames. -/
def framesAnswer (r : Except ErrorKind (List OutboundFrame)) : Except ErrorKind (BitVec 64 × List OutRecord) :=
  r.map fun fs => (framesRes fs, fs.map OutRecord.outbound)

/-- The answer of a command that parses records. -/
def recordsAnswer (r : Except ErrorKind (List InboundFrame)) : Except ErrorKind (BitVec 64 × List OutRecord) :=
  r.map fun rs => (BitVec.ofNat 64 rs.length, rs.map OutRecord.inbound)

/-- The answer of a transfer that the block itself numbers (44_fragmenter.md R188 to R190). -/
def sendAnswer (s : State) (k : TransferKind) (portId : BitVec 16) (remote : BitVec 8) :
    Except ErrorKind (BitVec 64 × List OutRecord) :=
  framesAnswer (createPacket s.cfg.prioNominal k portId remote s.tid s.ib s.nodeId s.mtu)

/-- RES and OUT of a command that succeeds, or its error. -/
def answer (i : Instr) (s : State) : Except ErrorKind (BitVec 64 × List OutRecord) :=
  match i with
  | .crcUpdate byte crc => .ok ((crcUpdate crc byte).setWidth 64, [])
  | .crcCompute initial declared => scalarAnswer ((crcCompute initial declared.toNat s.ib).map (·.setWidth 64))
  | .dlcToLen dlc => scalarAnswer (lookUpLen dlc)
  | .lenToDlc n => scalarAnswer (lookUpDlc n)
  | .roundUpLen n => scalarAnswer ((roundUpFrameLength n.toNat).map (BitVec.ofNat 64))
  | .makeMessageId src subject => scalarAnswer (canIdRes (makeMessageId subject src))
  | .makeServiceId src dst service isRequest => scalarAnswer (canIdRes (makeServiceId service isRequest src dst))
  | .makeCanId loc remote portId priority kind =>
    match kindOfCode kind with
    | none => .error .illegalCommand
    | some k => scalarAnswer (canIdRes (makeCanId priority k portId remote s.ib loc s.mtu))
  | .unpackId id => .ok (idFieldsRes (unpackId s.cfg.subjectRxMsb (canIdOf id)), [])
  | .makeTail tid startBit endBit toggle =>
    scalarAnswer ((makeTailByte startBit endBit toggle tid).map (·.setWidth 64))
  | .decodeTail tail => .ok (tailRes tail, [])
  | .createPacket tid remote portId priority kind =>
    match kindOfCode kind with
    | none => .error .illegalCommand
    | some k => framesAnswer (createPacket priority k portId remote tid s.ib s.nodeId s.mtu)
  | .sendMessage subject => sendAnswer s .message subject unsetNode
  | .sendRequest dst service => sendAnswer s .request service dst
  | .sendResponse dst service => sendAnswer s .response service dst
  | .parseBuffer => recordsAnswer (parseBuffer s.cfg.subjectRxMsb s.ib s.mtu.toNat)
  | .init _ mtu => if legalMtu mtu.toNat then .ok (0, []) else .error .invalidFrameSize
  | .setNodeId _ => .ok (0, [])
  | .readState => .ok (stateRes s, [])

/-- NODE_ID, MTU and TID after a command that succeeds (10_state.md R21 to R23). -/
def State.written (i : Instr) (s : State) : State :=
  match i with
  | .init node mtu => { s with nodeId := node, mtu := mtu.setWidth 7, tid := 0 }
  | .setNodeId node => { s with nodeId := node }
  | .sendMessage _ | .sendRequest _ _ | .sendResponse _ _ => { s with tid := nextTid s.cfg.tidModulus s.tid }
  | _ => s

/-- How a command ends, given its answer (60_exceptions.md R262). -/
def State.conclude (i : Instr) (s : State) : Except ErrorKind (BitVec 64 × List OutRecord) → State
  | .ok (res, out) => (s.written i).succeed res out
  | .error e => s.fail e

theorem State.conclude_scalarAnswer {i : Instr} {s : State} (hi : s.written i = s) (r : Except ErrorKind (BitVec 64)) :
    s.conclude i (scalarAnswer r) = s.finish r := by
  cases r with
  | ok v => exact congrArg (State.succeed · v []) hi
  | error e => rfl

theorem State.conclude_framesAnswer {i : Instr} {s : State} (hi : s.written i = s)
    (r : Except ErrorKind (List OutboundFrame)) : s.conclude i (framesAnswer r) = s.finishFrames r := by
  cases r with
  | ok fs => exact congrArg (State.succeed · (framesRes fs) (fs.map OutRecord.outbound)) hi
  | error e => rfl

theorem State.conclude_recordsAnswer {i : Instr} {s : State} (hi : s.written i = s)
    (r : Except ErrorKind (List InboundFrame)) : s.conclude i (recordsAnswer r) = s.finishRecords r := by
  cases r with
  | ok rs => exact congrArg (State.succeed · (BitVec.ofNat 64 rs.length) (rs.map OutRecord.inbound)) hi
  | error e => rfl

/-- A SEND_* that succeeds advances TID (44_fragmenter.md R191). -/
theorem State.conclude_sendAnswer {i : Instr} {s : State}
    (hi : s.written i = { s with tid := nextTid s.cfg.tidModulus s.tid }) (k : TransferKind) (portId : BitVec 16)
    (remote : BitVec 8) : s.conclude i (sendAnswer s k portId remote) = s.sendTransfer k portId remote := by
  obtain ⟨fs, hfs, hs⟩ | ⟨e, he, hs⟩ := s.sendTransfer_cases k portId remote
  · rw [hs, sendAnswer, hfs]
    exact congrArg (State.succeed · (framesRes fs) (fs.map OutRecord.outbound)) hi
  · rw [hs, sendAnswer, he]
    rfl

/-- Every command answers a next state, which is its answer written to STATUS, RES and OUT. -/
theorem exec_eq (i : Instr) (s : State) : exec i s = .next (s.conclude i (answer i s)) := by
  cases i with
  | crcUpdate | decodeTail | unpackId | setNodeId | readState => rfl
  | crcCompute | dlcToLen | lenToDlc | roundUpLen | makeMessageId | makeServiceId | makeTail =>
    exact congrArg Host.Outcome.next (State.conclude_scalarAnswer rfl _).symm
  | sendMessage | sendRequest | sendResponse =>
    exact congrArg Host.Outcome.next (State.conclude_sendAnswer rfl _ _ _).symm
  | makeCanId loc remote portId priority kind =>
    rw [exec, execMakeCanId, answer]
    cases kindOfCode kind with
    | none => rfl
    | some k => exact congrArg Host.Outcome.next (State.conclude_scalarAnswer rfl _).symm
  | createPacket tid remote portId priority kind =>
    rw [exec, execCreatePacket, answer]
    cases kindOfCode kind with
    | none => rfl
    | some k => exact congrArg Host.Outcome.next (State.conclude_framesAnswer rfl _).symm
  | parseBuffer => exact congrArg Host.Outcome.next (State.conclude_recordsAnswer rfl _).symm
  | init node mtu =>
    rw [exec, execInit, answer]
    split <;> rfl

theorem exec_eq_next_iff {i : Instr} {s t : State} : exec i s = .next t ↔ s.conclude i (answer i s) = t := by
  rw [exec_eq, Host.Outcome.next.injEq]

@[simp] theorem State.written_port (i : Instr) (s : State) : (s.written i).port = s.port := by cases i <;> rfl
@[simp] theorem State.written_cfg (i : Instr) (s : State) : (s.written i).cfg = s.cfg := by cases i <;> rfl

@[simp] theorem State.conclude_port (i : Instr) (s : State) (r) : (s.conclude i r).port = s.port := by
  cases r with
  | ok v => exact s.written_port i
  | error e => rfl

@[simp] theorem State.conclude_cfg (i : Instr) (s : State) (r) : (s.conclude i r).cfg = s.cfg := by
  cases r with
  | ok v => exact s.written_cfg i
  | error e => rfl

/-! ### No stuck state, and the codes -/

/-- Settles O6: idling and a reset answer a next state by definition, a command by `exec_eq`, a rejected word by the
error entry. -/
theorem everyAdmittedStepAnswersNext : Obligations.EveryAdmittedStepAnswersNext := by
  unfold Obligations.EveryAdmittedStepAnswersNext
  intro s hadmitted
  cases hport : s.port with
  | nil => exact ⟨s, by rw [step, hport], hport, rfl⟩
  | cons move rest =>
    cases move with
    | reset => exact ⟨s.takeReset, by rw [step, hport], by rw [State.takeReset_port, hport], rfl⟩
    | command cw ib =>
      have hlen : ib.length ≤ s.cfg.ibufCap := hadmitted cw ib rest hport
      cases hdecode : decode cw with
      | command i =>
        exact ⟨(s.conclude i (answer i s)).retire, by rw [step_command hport hlen hdecode, exec_eq, retireOutcome],
          by rw [State.retire_port, State.conclude_port, hport], by rw [State.retire_cfg, State.conclude_cfg]⟩
      | rejected why =>
        exact ⟨(s.fail .illegalCommand).retire, step_rejected hport hlen hdecode,
          by rw [State.retire_port, State.fail_port, hport], rfl⟩

/-- Settles O8: the codes of each command's row, which the errors of its function give. -/
theorem eachCommandWritesOnlyItsCodes : Obligations.EachCommandWritesOnlyItsCodes := by
  unfold Obligations.EachCommandWritesOnlyItsCodes
  exact fun i s t => exec_status_mem_allowedCodes

/-! ### Steps without a command, and a decoded command (20_memory.md R58, 70_reset_and_hazards.md R300, R301) -/

/-- Settles O2: both steps are branches of `step`. -/
theorem hostResetAndIdleSteps : Obligations.HostResetAndIdleSteps := by
  unfold Obligations.HostResetAndIdleSteps
  exact ⟨fun s => rfl, fun s hport => by rw [step, hport]⟩

/-- Settles O3: an admitted word that decodes runs its meaning, and a longer input is the one refusal of `step`. -/
theorem stepRunsTheDecodedCommand : Obligations.StepRunsTheDecodedCommand := by
  unfold Obligations.StepRunsTheDecodedCommand
  refine ⟨fun s t w ib i hlen hdecode hexec => ?admitted, fun s w ib hlong => ?tooLong⟩
  case admitted =>
    have hport : t.port = .command w ib :: s.port := by
      rw [← exec_eq_next_iff.mp hexec, State.conclude_port, State.issue_port]
    rw [step_command (s.issue_port w ib) hlen hdecode, hexec, retireOutcome, State.retire, hport, List.tail_cons]
  case tooLong =>
    have hnot : (s.issue w ib).admits ib = false := decide_eq_false (Nat.not_le.mpr hlong)
    simp only [step, State.issue_port, hnot]
    rfl

/-! ### What a command writes (10_state.md R21 to R23, R27) -/

/-- INIT succeeds only with a legal MTU (46_control.md R240). -/
theorem legalMtu_of_answer_init {node : BitVec 8} {mtu : BitVec 16} {s : State} {v : BitVec 64 × List OutRecord}
    (h : answer (.init node mtu) s = .ok v) : legalMtu mtu.toNat = true := by
  rw [answer] at h
  split at h
  case isTrue hlegal => exact hlegal
  case isFalse => cases h

theorem toNat_nextTid (m : TidModulus) (tid : BitVec 8) :
    (nextTid m tid).toNat = (tid.toNat + 1) % tidModulus m := by
  cases m <;> simp only [nextTid, tidModulus, BitVec.toNat_ofNat] <;> omega

/-- TID after a SEND_* that succeeds. -/
theorem State.written_tid_of_isSend {i : Instr} (h : isSend i = true) (s : State) :
    (s.written i).tid = nextTid s.cfg.tidModulus s.tid := by
  cases i with
  | sendMessage | sendRequest | sendResponse => rfl
  | _ => cases h

/-- The commands that write TID when they succeed. -/
theorem State.written_tid_cases (i : Instr) (s : State) :
    (s.written i).tid = s.tid ∨ (∃ n m, i = .init n m ∧ (s.written i).tid = 0) ∨ isSend i = true := by
  cases i with
  | init n m => exact .inr (.inl ⟨n, m, rfl, rfl⟩)
  | sendMessage | sendRequest | sendResponse => exact .inr (.inr rfl)
  | _ => exact .inl rfl

/-- Settles O11: a failed command writes none of the three registers, and a successful one leaves them as
`State.written` says. -/
theorem registersAreWrittenOnlyByTheirCommands : Obligations.RegistersAreWrittenOnlyByTheirCommands := by
  unfold Obligations.RegistersAreWrittenOnlyByTheirCommands
  intro i s t hexec
  obtain rfl := exec_eq_next_iff.mp hexec
  rw [State.conclude_port, State.conclude_cfg]
  cases hanswer : answer i s with
  | error e => exact ⟨fun h => absurd rfl h, fun h => absurd rfl h, fun h => absurd rfl h, rfl, rfl⟩
  | ok v =>
    refine ⟨fun hnode => ?nodeId, fun hmtu => ?mtu, fun htid => ⟨rfl, ?tid⟩, rfl, rfl⟩
    case nodeId =>
      cases i with
      | init n m => exact .inl ⟨n, m, rfl, rfl, rfl⟩
      | setNodeId n => exact .inr ⟨n, rfl, rfl⟩
      | _ => exact absurd rfl hnode
    case mtu =>
      cases i with
      | init n m =>
        have hmem : m.toNat ∈ legalMtus := List.contains_iff_mem.mp (legalMtu_of_answer_init hanswer)
        exact ⟨n, m, rfl, toNat_setWidth_of_mem_legalMtus hmem, rfl⟩
      | _ => exact absurd rfl hmtu
    case tid =>
      obtain hsame | ⟨n, m, hinit, hzero⟩ | hsend := s.written_tid_cases i
      · exact absurd hsame htid
      · exact .inl ⟨n, m, hinit, hzero⟩
      · exact .inr ⟨hsend, (congrArg BitVec.toNat (s.written_tid_of_isSend hsend)).trans (toNat_nextTid _ _)⟩

/-! ### What a command reads (10_state.md R27, 20_memory.md R51): noninterference -/

/-- Every ending writes STATUS, RES and OUT, whatever they held. -/
theorem State.conclude_overwrites (i : Instr) (s : State) (st : BitVec 8) (res : BitVec 64) (out : List OutRecord)
    (r : Except ErrorKind (BitVec 64 × List OutRecord)) :
    ({ s with status := st, res := res, out := out } : State).conclude i r = s.conclude i r := by
  cases r with
  | ok v => cases i <;> rfl
  | error e => rfl

/-- No ending reads or writes the host's moves. -/
theorem State.conclude_with_port (i : Instr) (s : State) (p : List HostMove)
    (r : Except ErrorKind (BitVec 64 × List OutRecord)) :
    ({ s with port := p } : State).conclude i r = { s.conclude i r with port := p } := by
  cases r with
  | ok v => cases i <;> rfl
  | error e => rfl

/-- STATUS, RES and OUT depend on the answer alone. -/
theorem State.conclude_results (i : Instr) (s u : State) (r : Except ErrorKind (BitVec 64 × List OutRecord)) :
    (s.conclude i r).status = (u.conclude i r).status ∧ (s.conclude i r).res = (u.conclude i r).res ∧
      (s.conclude i r).out = (u.conclude i r).out := by
  cases r with
  | ok v => exact ⟨rfl, rfl, rfl⟩
  | error e => exact ⟨rfl, rfl, rfl⟩

/-- Settles O9: no answer reads STATUS, RES or OUT, and every ending writes all three. -/
theorem oldResultsNeverShow : Obligations.OldResultsNeverShow := by
  unfold Obligations.OldResultsNeverShow
  intro i s st r o
  have hanswer : answer i { s with status := st, res := r, out := o } = answer i s := by cases i <;> rfl
  rw [exec_eq, exec_eq, hanswer, State.conclude_overwrites]

/-- Settles O10: an answer that does not read the input is the same under any host moves. -/
theorem unreadInputIsIgnored : Obligations.UnreadInputIsIgnored := by
  unfold Obligations.UnreadInputIsIgnored
  intro i s t p hreads hexec
  have hanswer : answer i { s with port := p } = answer i s := by
    cases i with
    | crcCompute | makeCanId | createPacket | sendMessage | sendRequest | sendResponse | parseBuffer => cases hreads
    | _ => rfl
  rw [exec_eq, hanswer, State.conclude_with_port, exec_eq_next_iff.mp hexec]

/-! The answer of a command does not depend on a register outside its row of R27. -/

theorem answer_of_not_readsNodeId {i : Instr} (h : readsNodeId i = false) (s : State) (v : BitVec 8) :
    answer i { s with nodeId := v } = answer i s := by
  cases i with
  | createPacket | sendMessage | sendRequest | sendResponse | readState => cases h
  | _ => rfl

theorem answer_of_not_readsMtu {i : Instr} (h : readsMtu i = false) (s : State) (v : BitVec 7) :
    answer i { s with mtu := v } = answer i s := by
  cases i with
  | makeCanId | createPacket | sendMessage | sendRequest | sendResponse | parseBuffer | readState => cases h
  | _ => rfl

theorem answer_of_not_readsTid {i : Instr} (h : readsTid i = false) (s : State) (v : BitVec 8) :
    answer i { s with tid := v } = answer i s := by
  cases i with
  | sendMessage | sendRequest | sendResponse | readState => cases h
  | _ => rfl

/-- No command computes MTU or TID from NODE_ID. -/
theorem State.conclude_with_nodeId (i : Instr) (s : State) (v : BitVec 8)
    (r : Except ErrorKind (BitVec 64 × List OutRecord)) :
    (({ s with nodeId := v } : State).conclude i r).mtu = (s.conclude i r).mtu ∧
      (({ s with nodeId := v } : State).conclude i r).tid = (s.conclude i r).tid := by
  cases r with
  | ok v => cases i <;> exact ⟨rfl, rfl⟩
  | error e => exact ⟨rfl, rfl⟩

/-- No command computes NODE_ID or TID from MTU. -/
theorem State.conclude_with_mtu (i : Instr) (s : State) (v : BitVec 7)
    (r : Except ErrorKind (BitVec 64 × List OutRecord)) :
    (({ s with mtu := v } : State).conclude i r).nodeId = (s.conclude i r).nodeId ∧
      (({ s with mtu := v } : State).conclude i r).tid = (s.conclude i r).tid := by
  cases r with
  | ok v => cases i <;> exact ⟨rfl, rfl⟩
  | error e => exact ⟨rfl, rfl⟩

/-- No command computes NODE_ID or MTU from TID. -/
theorem State.conclude_with_tid (i : Instr) (s : State) (v : BitVec 8)
    (r : Except ErrorKind (BitVec 64 × List OutRecord)) :
    (({ s with tid := v } : State).conclude i r).nodeId = (s.conclude i r).nodeId ∧
      (({ s with tid := v } : State).conclude i r).mtu = (s.conclude i r).mtu := by
  cases r with
  | ok v => cases i <;> exact ⟨rfl, rfl⟩
  | error e => exact ⟨rfl, rfl⟩

/-- Settles O12: the answer of a command that does not read a register is the same for any value in it, so STATUS, RES
and OUT are; no ending computes one of the three registers from another. -/
theorem unreadRegistersDoNotShow : Obligations.UnreadRegistersDoNotShow := by
  unfold Obligations.UnreadRegistersDoNotShow
  intro i s t hexec
  obtain rfl := exec_eq_next_iff.mp hexec
  refine ⟨fun hreads v => ?nodeId, fun hreads v => ?mtu, fun hreads v => ?tid⟩
  case nodeId =>
    obtain ⟨hstatus, hres, hout⟩ := State.conclude_results i { s with nodeId := v } s (answer i s)
    refine ⟨_, exec_eq _ _, ?_⟩
    rw [answer_of_not_readsNodeId hreads]
    exact ⟨hstatus, hres, hout, s.conclude_with_nodeId i v _⟩
  case mtu =>
    obtain ⟨hstatus, hres, hout⟩ := State.conclude_results i { s with mtu := v } s (answer i s)
    refine ⟨_, exec_eq _ _, ?_⟩
    rw [answer_of_not_readsMtu hreads]
    exact ⟨hstatus, hres, hout, s.conclude_with_mtu i v _⟩
  case tid =>
    obtain ⟨hstatus, hres, hout⟩ := State.conclude_results i { s with tid := v } s (answer i s)
    refine ⟨_, exec_eq _ _, ?_⟩
    rw [answer_of_not_readsTid hreads]
    exact ⟨hstatus, hres, hout, s.conclude_with_tid i v _⟩

end Sys2Proof.Machine

namespace Sys2Proof.Machine

/-! ## Identifiers: the zero identifier and the round trip (42_can_id.md R143, R144, R148) -/

/-- A bit of an identifier, from its number. -/
theorem getLsbD_canId (id : CanId) (j : Nat) : id.getLsbD j = decide (id.toNat / 2 ^ j % 2 = 1) := by
  rw [BitVec.getLsbD, Nat.testBit_eq_decide_div_mod_eq]

section CanIdOutcomes
variable {priority : BitVec 3} {k : TransferKind} {portId : BitVec 16} {remote : BitVec 8} {payload : List Byte}
  {loc : BitVec 8} {mtu : BitVec 7} {id : CanId}

/-- `make_can_id` answers for accepted operands only. -/
theorem idAccepted_of_makeCanId_eq_ok (h : makeCanId priority k portId remote payload loc mtu = .ok id) :
    idAccepted priority k portId remote payload loc mtu := by
  by_contra hnot
  by_cases hzero : k = .message ∧ 128 ≤ remote.toNat ∧ loc = 0 ∧ portId = 0 ∧ priority = 0
  · obtain ⟨rfl, hremote, hzero⟩ := hzero
    rw [makeCanId_of_zero hremote hzero] at h
    cases h
  · rw [makeCanId_of_not_accepted hnot hzero] at h
    cases h

theorem makeCanId_eq_invalidCanId_iff :
    makeCanId priority k portId remote payload loc mtu = .error .invalidCanId ↔
      k = .message ∧ 128 ≤ remote.toNat ∧ loc = 0 ∧ portId = 0 ∧ priority = 0 := by
  constructor
  · intro h
    by_contra hzero
    by_cases haccepted : idAccepted priority k portId remote payload loc mtu
    · obtain ⟨id, hid⟩ := makeCanId_of_accepted haccepted
      rw [hid] at h
      cases h
    · rw [makeCanId_of_not_accepted haccepted hzero] at h
      cases h
  · rintro ⟨rfl, hremote, hzero⟩
    exact makeCanId_of_zero hremote hzero

/-- R144: the zero check lets no zero identifier through. -/
theorem ne_zero_of_makeCanId_eq_ok (h : makeCanId priority k portId remote payload loc mtu = .ok id) : id ≠ 0 := by
  unfold makeCanId at h
  split at h
  case h_1 => cases h
  case h_2 =>
    simp only [withPriority] at h
    split at h
    case isTrue => cases h
    case isFalse hne => cases h; exact hne

/-- A service identifier has bit 25 set (30_encoding.md R93). -/
theorem makeCanId_service_bit25 {req : Bool}
    (h : makeCanId priority (serviceKind req) portId remote payload loc mtu = .ok id) : id.getLsbD 25 = true := by
  obtain ⟨hport, hremote, hloc, hvalue⟩ := toNat_of_makeCanId_service h
  have hreq : req.toNat ≤ 1 := Bool.toNat_le req
  rw [getLsbD_canId, hvalue, decide_eq_true_iff]
  omega

/-- Every kind is Message or a service kind. -/
theorem eq_message_or_serviceKind (k : TransferKind) : k = .message ∨ ∃ req, k = serviceKind req := by
  cases k with
  | message => exact .inl rfl
  | request => exact .inr ⟨true, rfl⟩
  | response => exact .inr ⟨false, rfl⟩

theorem serviceKind_ne_message (req : Bool) : serviceKind req ≠ .message := by
  cases req <;> decide

/-- An anonymous node has identifiers for messages only. -/
theorem eq_message_of_anonymous (hloc : 128 ≤ loc.toNat)
    (h : makeCanId priority k portId remote payload loc mtu = .ok id) : k = .message := by
  obtain rfl | ⟨req, rfl⟩ := eq_message_or_serviceKind k
  · rfl
  · obtain ⟨-, -, hvalid, -⟩ := toNat_of_makeCanId_service h
    omega

/-- The identifier of a message from a valid local node, as the sum of its fields (R140, R143). -/
theorem toNat_of_makeCanId_message (hloc : loc.toNat ≤ 127)
    (h : makeCanId priority .message portId remote payload loc mtu = .ok id) :
    portId.toNat ≤ 8191 ∧ id.toNat = priority.toNat * 2 ^ 26 + portId.toNat * 2 ^ 8 + loc.toNat := by
  obtain ⟨hremote, hport, -, hnonzero⟩ := idAccepted_of_makeCanId_eq_ok h
  obtain ⟨xid, hxid, hvalue⟩ := makeCanId_message_of_valid (payload := payload) (mtu := mtu) priority hremote hport hloc
    (mt messageValue_eq_zero_iff.mp hnonzero)
  obtain rfl : id = xid := Except.ok.inj (h.symm.trans hxid)
  exact ⟨hport, hvalue⟩

/-- The identifier of an anonymous message, as the sum of its fields; the low seven bits are the CRC's (R143). -/
theorem toNat_of_makeCanId_anonymous (hloc : 128 ≤ loc.toNat)
    (h : makeCanId priority .message portId remote payload loc mtu = .ok id) :
    portId.toNat ≤ 8191 ∧
      id.toNat = priority.toNat * 2 ^ 26 + 2 ^ 24 + portId.toNat * 2 ^ 8 + (crc16 payload).toNat % 128 := by
  obtain ⟨hremote, hport, hsender, -⟩ := idAccepted_of_makeCanId_eq_ok h
  obtain ⟨xid, hxid, hvalue⟩ := makeCanId_message_of_anonymous priority hremote hport hloc
    (hsender.resolve_left (by omega))
  obtain rfl : id = xid := Except.ok.inj (h.symm.trans hxid)
  exact ⟨hport, hvalue⟩

end CanIdOutcomes

/-- Settles O33: the one error InvalidCanId of `make_can_id`, and the flags of the identifiers it gives. -/
theorem zeroIdentifierArisesExactlyOnce : Obligations.ZeroIdentifierArisesExactlyOnce := by
  unfold Obligations.ZeroIdentifierArisesExactlyOnce
  intro prio k portId remote payload loc mtu
  refine ⟨makeCanId_eq_invalidCanId_iff, fun id hid =>
    ⟨ne_zero_of_makeCanId_eq_ok hid, fun hservice => ?service, fun hloc => ?anonymous⟩⟩
  case service =>
    obtain rfl | ⟨req, rfl⟩ := eq_message_or_serviceKind k
    · exact absurd rfl hservice
    · exact makeCanId_service_bit25 hid
  case anonymous =>
    obtain rfl := eq_message_of_anonymous hloc hid
    exact makeCanId_message_anonymous_flag (idAccepted_of_makeCanId_eq_ok hid) hid hloc

/-! ### Unpacking a packed identifier -/

section RoundTrip
variable (msb : SubjectRxMsb) {priority : BitVec 3} {portId : BitVec 16} {remote : BitVec 8} {payload : List Byte}
  {loc : BitVec 8} {mtu : BitVec 7} {id : CanId}

theorem extractLsb'_eq_of_toNat {n w : Nat} {lo : Nat} (hn : n ≤ w) {v : BitVec w}
    (h : id.toNat / 2 ^ lo % 2 ^ n = v.toNat) : (id.extractLsb' lo n).setWidth w = v :=
  BitVec.eq_of_toNat_eq (by rw [toNat_extractLsb'_setWidth id lo hn, h])

theorem priority_of_toNat (h : id.toNat / 2 ^ 26 = priority.toNat) : id.extractLsb' 26 3 = priority := by
  apply BitVec.eq_of_toNat_eq
  rw [BitVec.extractLsb'_toNat, Nat.shiftRight_eq_div_pow, h]
  omega

/-- A subject of at most 13 bits is read back under either value of SUBJECT_RX_MSB. -/
theorem subjectField_of_toNat (hport : portId.toNat ≤ 8191) (h : id.toNat / 2 ^ 8 % 2 ^ 14 = portId.toNat) :
    subjectField msb id = portId := by
  apply BitVec.eq_of_toNat_eq
  rw [toNat_subjectField]
  split <;> omega

theorem unpackId_of_service {req : Bool}
    (h : makeCanId priority (serviceKind req) portId remote payload loc mtu = .ok id) :
    unpackId msb id = ⟨priority, serviceKind req, portId, loc, remote⟩ := by
  obtain ⟨hport, hremote, hloc, hvalue⟩ := toNat_of_makeCanId_service h
  have hreq : req.toNat ≤ 1 := Bool.toNat_le req
  rw [unpackId_service msb (makeCanId_service_bit25 h), makeCanId_service_flag h,
    priority_of_toNat (priority := priority) (by omega),
    extractLsb'_eq_of_toNat (by decide) (show id.toNat / 2 ^ 14 % 2 ^ 9 = portId.toNat by omega),
    extractLsb'_eq_of_toNat (by decide) (show id.toNat / 2 ^ 0 % 2 ^ 7 = loc.toNat by omega),
    extractLsb'_eq_of_toNat (by decide) (show id.toNat / 2 ^ 7 % 2 ^ 7 = remote.toNat by omega)]

theorem unpackId_of_message (hloc : loc.toNat ≤ 127)
    (h : makeCanId priority .message portId remote payload loc mtu = .ok id) :
    unpackId msb id = ⟨priority, .message, portId, loc, 0xFF⟩ := by
  obtain ⟨hport, hvalue⟩ := toNat_of_makeCanId_message hloc h
  have bit25 : id.getLsbD 25 = false := by
    rw [getLsbD_canId, decide_eq_false_iff_not]; omega
  have bit24 : id.getLsbD 24 = false := by
    rw [getLsbD_canId, decide_eq_false_iff_not]; omega
  rw [unpackId_message msb bit25, bit24,
    priority_of_toNat (priority := priority) (by omega), subjectField_of_toNat msb hport (by omega),
    extractLsb'_eq_of_toNat (by decide) (show id.toNat / 2 ^ 0 % 2 ^ 7 = loc.toNat by omega)]
  rfl

theorem unpackId_of_anonymous (hloc : 128 ≤ loc.toNat)
    (h : makeCanId priority .message portId remote payload loc mtu = .ok id) :
    unpackId msb id = ⟨priority, .message, portId, 0xFF, 0xFF⟩ := by
  obtain ⟨hport, hvalue⟩ := toNat_of_makeCanId_anonymous hloc h
  have bit25 : id.getLsbD 25 = false := by
    rw [getLsbD_canId, decide_eq_false_iff_not]; omega
  have bit24 : id.getLsbD 24 = true := by
    rw [getLsbD_canId, decide_eq_true_iff]; omega
  rw [unpackId_message msb bit25, bit24,
    priority_of_toNat (priority := priority) (by omega), subjectField_of_toNat msb hport (by omega)]
  rfl

end RoundTrip

/-- Settles O39: one round trip per layout: a service, a message from a valid node, and an anonymous message, whose
source is lost. -/
theorem identifiersRoundTrip : Obligations.IdentifiersRoundTrip := by
  unfold Obligations.IdentifiersRoundTrip
  intro msb prio k portId remote payload loc mtu id hid
  refine ⟨fun hloc => ?valid, fun hloc => ?anonymous⟩
  case valid =>
    obtain rfl | ⟨req, rfl⟩ := eq_message_or_serviceKind k
    · exact unpackId_of_message msb hloc hid
    · rw [if_neg (serviceKind_ne_message req), unpackId_of_service msb hid]
  case anonymous =>
    obtain rfl := eq_message_of_anonymous hloc hid
    exact unpackId_of_anonymous msb hloc hid

/-! ## Before INIT (70_reset_and_hazards.md R302) -/

/-- A node with the reset NODE_ID sends the messages that fit one frame (42_can_id.md R143). -/
theorem idAccepted_of_reset_node {priority : BitVec 3} {portId : BitVec 16} {payload : List Byte} :
    idAccepted priority .message portId unsetNode payload State.reset.nodeId State.reset.mtu ↔
      portId.toNat ≤ 8191 ∧ payload.length ≤ 7 := by
  have hnode : ¬State.reset.nodeId.toNat ≤ 127 := by decide
  have hnonzero : State.reset.nodeId ≠ 0 := by decide
  have hmtu : presentationMtu State.reset.mtu = 7 := by decide
  have hremote : 128 ≤ unsetNode.toNat := by decide
  simp only [idAccepted, hnode, hnonzero, hmtu, hremote, true_and, false_or, false_and, not_false_eq_true, and_true]

/-- Settles O13: with the reset NODE_ID and MTU a message is accepted exactly if it fits one frame, and then it is sent;
no service operands are accepted from an anonymous node. -/
theorem beforeInitOnlyShortMessagesAreSent : Obligations.BeforeInitOnlyShortMessagesAreSent := by
  unfold Obligations.BeforeInitOnlyShortMessagesAreSent
  intro s hnode hmtu
  have hanonymous : 128 ≤ s.nodeId.toNat := by rw [hnode]; decide
  refine ⟨fun subject => ⟨_, exec_sendMessage subject s, ?_⟩, fun dst service => ⟨?request, ?response⟩⟩
  case request =>
    exact congrArg Host.Outcome.next (State.sendTransfer_service_of_anonymous hanonymous true service dst)
  case response =>
    exact congrArg Host.Outcome.next (State.sendTransfer_service_of_anonymous hanonymous false service dst)
  have haccepted_iff : idAccepted s.cfg.prioNominal .message subject 0xFF s.ib s.nodeId s.mtu ↔
      subject.toNat ≤ 8191 ∧ s.ib.length ≤ 7 := by rw [hnode, hmtu]; exact idAccepted_of_reset_node
  rw [← haccepted_iff]
  by_cases haccepted : idAccepted s.cfg.prioNominal .message subject 0xFF s.ib s.nodeId s.mtu
  · obtain ⟨xid, fs, -, -, -, -, hsend⟩ := State.sendTransfer_of_accepted (by rw [hmtu]; decide) haccepted
    rw [hsend]
    exact ⟨.inl rfl, fun _ => haccepted, fun _ => rfl⟩
  · rw [State.sendTransfer_of_not_accepted haccepted]
    exact ⟨.inr rfl, fun h => absurd h (errorCode_ne_ok .invalidCanId), fun h => absurd h haccepted⟩

end Sys2Proof.Machine

namespace Sys2Proof.Machine

/-! ## The closed form of the multi-frame path (44_fragmenter.md R183 to R185) -/

/-! ### The CRC residue (40_crc.md R125) -/

/-- Shifting a state whose set bits all lie below bit `16 - n` left `n` times meets no polynomial. -/
theorem crcBits_of_low {c : CrcState} {n : Nat} (hn : n ≤ 16) (h : c.toNat < 2 ^ (16 - n)) : crcBits c n = c <<< n := by
  induction n generalizing c with
  | zero => exact (BitVec.shiftLeft_zero c).symm
  | succ n ih =>
    have hlow : c.toNat < 2 ^ 15 := h.trans_le (Nat.pow_le_pow_right (by decide) (by omega))
    have htop : c.getLsbD 15 = false := Nat.testBit_lt_two_pow hlow
    have hshift : (c <<< 1).toNat < 2 ^ (16 - n) := by
      rw [BitVec.toNat_shiftLeft, Nat.shiftLeft_eq]
      have hdouble : 2 ^ (16 - n) = 2 ^ (16 - (n + 1)) * 2 := by rw [← Nat.pow_succ]; congr 1; omega
      have hmod := Nat.mod_le (c.toNat * 2 ^ 1) (2 ^ 16)
      omega
    rw [crcBits, crcBit, htop, if_neg Bool.false_ne_true, ih (by omega) hshift, ← BitVec.shiftLeft_add,
      Nat.add_comm]

/-- Folding in a state's own high byte leaves its low byte, moved up. -/
theorem crcUpdate_crcHigh (c : CrcState) : crcUpdate c (crcHigh c) = (crcLow c).setWidth 16 <<< 8 := by
  have hxor : c ^^^ ((crcHigh c).setWidth 16 <<< 8) = (crcLow c).setWidth 16 := by
    apply BitVec.eq_of_getLsbD_eq
    intro j hj
    simp only [crcHigh, crcLow, BitVec.getLsbD_xor, BitVec.getLsbD_shiftLeft, BitVec.getLsbD_setWidth,
      BitVec.getLsbD_extractLsb']
    by_cases hlow : j < 8
    · simp [hlow, hj]
    · have hbit : 8 + (j - 8) = j := by omega
      have hhigh : j - 8 < 8 := by omega
      have hwide : j - 8 < 16 := by omega
      simp [hlow, hj, hbit, hhigh, hwide]
  rw [crcUpdate, hxor]
  refine crcBits_of_low (by decide) ?_
  rw [BitVec.toNat_setWidth_of_le (by decide)]
  exact (crcLow c).isLt

/-- A state folded with its own two bytes, high byte first, is 0. -/
theorem crcFold_crc_bytes (c : CrcState) : crcFold c [crcHigh c, crcLow c] = 0 := by
  rw [crcFold_cons, crcFold_cons, crcFold_nil, crcUpdate_crcHigh, crcUpdate, BitVec.xor_self]
  rfl

theorem crc16_append_crc (x : List Byte) : crc16 (x ++ [crcHigh (crc16 x), crcLow (crc16 x)]) = 0 := by
  rw [crc16, crcFold_append]
  exact crcFold_crc_bytes _

/-! ### The number of frames and the share of the last one (R185) -/

/-- Frame `k` exists when the `k` full frames before it leave a payload or CRC byte. -/
theorem lt_frameCount_iff {n p k : Nat} (hp : 0 < p) : k < frameCount n p ↔ k * p < n + 2 := by
  rw [frameCount, ← Nat.succ_le_iff, Nat.le_div_iff_mul_le hp, Nat.succ_mul]
  omega

theorem frameCount_pos {n p : Nat} (hp : 0 < p) : 0 < frameCount n p :=
  (lt_frameCount_iff hp).mpr (by omega)

/-- The share of the last frame, when `k` full frames stand before it. -/
theorem lastShare_of_last {n p k : Nat} (h : k + 1 = frameCount n p) : lastShare n p = n + 2 - k * p := by
  rw [lastShare, ← h, Nat.add_sub_cancel]

theorem lastShare_range {n p : Nat} (hp : 0 < p) : 1 ≤ lastShare n p ∧ lastShare n p ≤ p := by
  obtain ⟨k, hk⟩ := Nat.exists_eq_succ_of_ne_zero (frameCount_pos (n := n) hp).ne'
  have hlast : k * p < n + 2 := (lt_frameCount_iff hp).mp (by omega)
  have hend : ¬(k + 1) * p < n + 2 := fun h => by have := (lt_frameCount_iff hp).mpr h; omega
  rw [lastShare_of_last hk.symm]
  rw [Nat.succ_mul] at hend
  omega

/-- `pad` of R185: the zero bytes that fill the last frame. -/
def padLength (n p : Nat) : Nat := quantize (lastShare n p + 1) - 1 - lastShare n p

theorem paddedPayload_eq (payload : List Byte) (p : Nat) :
    paddedPayload payload p = payload ++ zeros (padLength payload.length p) := rfl

/-- The last frame is its share, the padding and the tail byte. -/
theorem lastShare_add_padLength {n p : Nat} (hp : 0 < p) (hp' : p ≤ 63) :
    lastShare n p + padLength n p + 1 = quantize (lastShare n p + 1) := by
  obtain ⟨-, hle⟩ := lastShare_range (n := n) hp
  have hround := le_quantize (lastShare n p + 1) (by omega)
  rw [padLength]
  omega

/-- A share below 8 is not padded (R185). -/
theorem padLength_of_lt {n p : Nat} (h : lastShare n p < 8) : padLength n p = 0 := by
  rw [padLength, quantize_eq (by omega), if_pos (by omega)]
  omega

theorem transferBytes_eq (payload : List Byte) (p : Nat) :
    transferBytes payload p = payload ++ zeros (padLength payload.length p) ++
      [crcHigh (crc16 (paddedPayload payload p)), crcLow (crc16 (paddedPayload payload p))] := rfl

theorem crc16_paddedPayload (payload : List Byte) (p : Nat) :
    crc16 (paddedPayload payload p) = crcFold (crc16 payload) (zeros (padLength payload.length p)) := by
  rw [paddedPayload_eq, crc16, crcFold_append, crc16]

theorem transferBytes_length (payload : List Byte) (p : Nat) :
    (transferBytes payload p).length = payload.length + padLength payload.length p + 2 := by
  rw [transferBytes_eq, List.length_append, List.length_append, zeros_length]
  rfl

/-! ### What one round places (R183) -/

/-- When the payload has just been placed, the CRC bytes follow as far as there is room. -/
theorem placeCrc_d_of_payload_placed {n cap : Nat} {f : Fill} (h : f.off = n) :
    (placeCrcLow n cap (placeCrcHigh n cap f)).d = f.d ++ [crcHigh f.crc, crcLow f.crc].take (cap - f.d.length) ∧
      (placeCrcLow n cap (placeCrcHigh n cap f)).crc = f.crc := by
  by_cases hroom : f.d.length < cap
  · rw [placeCrcHigh, if_pos ⟨hroom, h⟩]
    by_cases hroomLow : f.d.length + 1 < cap
    · obtain ⟨m, hm⟩ : ∃ m, cap - f.d.length = m + 2 := ⟨cap - f.d.length - 2, by omega⟩
      rw [placeCrcLow, if_pos (by simpa [h] using hroomLow), hm]
      simp
    · have one : cap - f.d.length = 1 := by omega
      rw [placeCrcLow, if_neg (by simp [hroomLow]), one]
      simp
  · have none : cap - f.d.length = 0 := by omega
    rw [placeCrcHigh, if_neg (by omega), placeCrcLow, if_neg (by omega), none]
    simp

/-- A frame that the payload fills holds payload bytes and leaves the running CRC. -/
theorem fillFrame_d_of_payload_left {payload : List Byte} {p off : Nat} (cap : Nat) (c : CrcState)
    (h : off + p < payload.length) :
    (fillFrame payload p cap off c).d = slice payload off (off + p) ∧ (fillFrame payload p cap off c).crc = c := by
  have hcopied : min (payload.length - off) p = p := by omega
  have hleft : (copyPayload payload p off c).off < payload.length := by rw [copyPayload_off, hcopied]; exact h
  have hfill : fillFrame payload p cap off c = copyPayload payload p off c := if_pos hleft
  rw [hfill, copyPayload, hcopied]
  exact ⟨rfl, rfl⟩

/-- A frame that reaches the payload's end holds the rest of it, the padding, and the CRC bytes that have room. -/
theorem fillFrame_d_of_payload_end {payload : List Byte} {p off cap pad : Nat} (c : CrcState)
    (hoff : off ≤ payload.length) (h : payload.length ≤ off + p) (hpad : cap - 2 - (payload.length - off) = pad) :
    (fillFrame payload p cap off c).d = payload.drop off ++ zeros pad ++
        [crcHigh (crcFold c (zeros pad)), crcLow (crcFold c (zeros pad))].take (cap - (payload.length - off + pad)) ∧
      (fillFrame payload p cap off c).crc = crcFold c (zeros pad) := by
  have hcopied : min (payload.length - off) p = payload.length - off := by omega
  have hend : (copyPayload payload p off c).off = payload.length := by rw [copyPayload_off, hcopied]; omega
  have hcopy : (copyPayload payload p off c).d = payload.drop off := by
    simp only [copyPayload, slice, hcopied]
    rw [List.take_of_length_le (by rw [List.length_drop]; omega)]
  have hpadded : padFrame cap (copyPayload payload p off c) =
      { d := payload.drop off ++ zeros pad, off := payload.length, crc := crcFold c (zeros pad) } := by
    simp only [padFrame, hcopy, hend, crcSize, List.length_drop, hpad]
    rfl
  obtain ⟨hd, hcrc⟩ := placeCrc_d_of_payload_placed (n := payload.length) (cap := cap)
    (f := { d := payload.drop off ++ zeros pad, off := payload.length, crc := crcFold c (zeros pad) }) rfl
  simp only [fillFrame, hend, lt_irrefl, if_false, hpadded]
  refine ⟨hd.trans ?_, hcrc⟩
  rw [List.length_append, List.length_drop, zeros_length]

/-- The frame after one that ended in the CRC's high byte holds the low byte alone. -/
theorem fillFrame_d_of_high_placed {payload : List Byte} {p off : Nat} (c : CrcState)
    (hoff : off = payload.length + 1) : (fillFrame payload p 1 off c).d = [crcLow c] := by
  subst hoff
  have hcopy : copyPayload payload p (payload.length + 1) c = { d := [], off := payload.length + 1, crc := c } := by
    simp [copyPayload, slice]
  simp [fillFrame, hcopy, padFrame, placeCrcHigh, placeCrcLow]

/-- What is left of the transfer's bytes inside the payload or at its end. -/
theorem drop_transferBytes {payload : List Byte} {off : Nat} (p : Nat) (h : off ≤ payload.length) :
    (transferBytes payload p).drop off = payload.drop off ++ zeros (padLength payload.length p) ++
      [crcHigh (crc16 (paddedPayload payload p)), crcLow (crc16 (paddedPayload payload p))] := by
  rw [transferBytes_eq, List.append_assoc, List.drop_append_of_le_length h, List.append_assoc]

/-- When the CRC's low byte stands alone there is no padding, and it is the payload's own. -/
theorem drop_transferBytes_high {payload : List Byte} {p : Nat} (hpad : padLength payload.length p = 0) :
    (transferBytes payload p).drop (payload.length + 1) = [crcLow (crc16 payload)] := by
  rw [← List.drop_drop, drop_transferBytes p le_rfl, paddedPayload_eq, hpad]
  simp

/-! ### One round of the loop is one frame of the closed form -/

/-- The last frame is full, or its share rounded up (R184). -/
theorem multiFrameLength_of_last {n p k : Nat} (hp : 0 < p) (hfull : quantize (p + 1) = p + 1)
    (h : k + 1 = frameCount n p) : multiFrameLength p (n + 2 - k * p) = quantize (lastShare n p + 1) := by
  rw [← lastShare_of_last h]
  obtain heq | hlt := (lastShare_range (n := n) hp).2.eq_or_lt
  · rw [multiFrameLength_of_le heq.ge, heq, hfull]
  · rw [multiFrameLength_of_lt hlt]

/-- Another frame follows when the cursor's move by `p` does not reach the end of the CRC. -/
theorem succ_lt_frameCount_iff {n p k : Nat} (hp : 0 < p) : k + 1 < frameCount n p ↔ k * p + p < n + 2 := by
  rw [lt_frameCount_iff hp, Nat.succ_mul]

section ClosedFrame
variable (xid : CanId) (tid : BitVec 8) (payload : List Byte) {p k : Nat} (mtu : Nat)

/-- A frame before the last is full (R185). -/
theorem closedFrame_of_next (h : k + 1 < frameCount payload.length p) :
    closedFrame xid tid payload p mtu k =
      frameOf xid (p + 1) (slice (transferBytes payload p) (k * p) (k * p + p))
        (sequenceTail k (frameCount payload.length p) tid) (mtu - (p + 1)) := by
  simp only [closedFrame, if_pos h, frameOf]

/-- The last frame holds the rest of the transfer's bytes (R185). -/
theorem closedFrame_of_last (h : k + 1 = frameCount payload.length p) :
    closedFrame xid tid payload p mtu k =
      frameOf xid (quantize (lastShare payload.length p + 1)) ((transferBytes payload p).drop (k * p))
        (sequenceTail k (frameCount payload.length p) tid) (mtu - quantize (lastShare payload.length p + 1)) := by
  have hk : frameCount payload.length p - 1 = k := by omega
  simp only [closedFrame, if_neg (show ¬k + 1 < frameCount payload.length p by omega), frameOf, hk]

theorem slice_length_of_next (hp : 0 < p) (h : k + 1 < frameCount payload.length p) :
    (slice (transferBytes payload p) (k * p) (k * p + p)).length = p := by
  have hleft : k * p + p < payload.length + 2 := (succ_lt_frameCount_iff hp).mp h
  rw [slice_length _ _ _ (by rw [transferBytes_length]; omega), Nat.add_sub_cancel_left]

theorem drop_length_of_last (hp : 0 < p) (hp' : p ≤ 63) (h : k + 1 = frameCount payload.length p) :
    ((transferBytes payload p).drop (k * p)).length = quantize (lastShare payload.length p + 1) - 1 := by
  have hcursor : k * p < payload.length + 2 := (lt_frameCount_iff hp).mp (by omega)
  have hshare : lastShare payload.length p = payload.length + 2 - k * p := lastShare_of_last h
  have hfill := lastShare_add_padLength (n := payload.length) hp hp'
  rw [List.length_drop, transferBytes_length]
  omega

/-- Frame `k` as the loop makes it: of the length of R184, with the transfer's bytes from the cursor on. -/
theorem closedFrame_eq (hp : 0 < p) (hp' : p ≤ 63) (hfull : quantize (p + 1) = p + 1)
    (hk : k < frameCount payload.length p) :
    closedFrame xid tid payload p mtu k =
      frameOf xid (multiFrameLength p (payload.length + 2 - k * p))
        (slice (transferBytes payload p) (k * p) (k * p + (multiFrameLength p (payload.length + 2 - k * p) - 1)))
        (sequenceTail k (frameCount payload.length p) tid) (mtu - multiFrameLength p (payload.length + 2 - k * p)) := by
  by_cases hnext : k + 1 < frameCount payload.length p
  · have hleft : k * p + p < payload.length + 2 := (succ_lt_frameCount_iff hp).mp hnext
    rw [closedFrame_of_next xid tid payload mtu hnext, multiFrameLength_of_le (by omega), Nat.add_sub_cancel]
  · have hlast : k + 1 = frameCount payload.length p := by omega
    rw [closedFrame_of_last xid tid payload mtu hlast, multiFrameLength_of_last hp hfull hlast, slice,
      Nat.add_sub_cancel_left, List.take_of_length_le (drop_length_of_last payload hp hp' hlast).le]

end ClosedFrame

theorem slice_append_left {x y : List Byte} {a b : Nat} (h : b ≤ x.length) : slice (x ++ y) a b = slice x a b := by
  rw [slice, slice, List.drop_append, List.take_append_of_le_length]
  rw [List.length_drop]
  omega

/-- The frame of a round in which the payload's end falls, as a slice of the transfer's bytes. -/
theorem fillFrame_of_payload_end_eq_slice {payload : List Byte} {p off cap : Nat} (hoff : off ≤ payload.length)
    (h : payload.length ≤ off + p) (hpad : cap - 2 - (payload.length - off) = padLength payload.length p)
    (hcap : payload.length - off + padLength payload.length p ≤ cap) :
    (fillFrame payload p cap off (crc16 payload)).d = slice (transferBytes payload p) off (off + cap) ∧
      (fillFrame payload p cap off (crc16 payload)).crc = crc16 (paddedPayload payload p) := by
  obtain ⟨hd, hcrc⟩ := fillFrame_d_of_payload_end (crc16 payload) hoff h hpad
  rw [← crc16_paddedPayload] at hd hcrc
  refine ⟨hd.trans ?_, hcrc⟩
  have hlength : (payload.drop off ++ zeros (padLength payload.length p)).length =
      payload.length - off + padLength payload.length p := by rw [List.length_append, List.length_drop, zeros_length]
  rw [slice, drop_transferBytes p hoff, Nat.add_sub_cancel_left, List.take_append,
    List.take_of_length_le (hlength.trans_le hcap), hlength]

/-- A round before the last places the transfer's next `p` bytes and leaves the running CRC: only the last frame is
padded. -/
theorem fillFrame_of_more_frames {payload : List Byte} {p k : Nat} (hp : 2 ≤ p)
    (hnext : k + 1 < frameCount payload.length p) :
    (fillFrame payload p p (k * p) (crc16 payload)).d = slice (transferBytes payload p) (k * p) (k * p + p) ∧
      (fillFrame payload p p (k * p) (crc16 payload)).crc = crc16 payload := by
  have hpos : 0 < p := by omega
  have hend : k * p + p < payload.length + 2 := (succ_lt_frameCount_iff hpos).mp hnext
  by_cases hleft : k * p + p < payload.length
  · obtain ⟨hd, hcrc⟩ := fillFrame_d_of_payload_left p (crc16 payload) hleft
    rw [hd, transferBytes_eq, List.append_assoc, slice_append_left hleft.le]
    exact ⟨rfl, hcrc⟩
  · have hnone : ¬k + 1 + 1 < frameCount payload.length p := by
      rw [succ_lt_frameCount_iff hpos, Nat.succ_mul]; omega
    have hshare : lastShare payload.length p = payload.length + 2 - (k * p + p) := by
      rw [lastShare_of_last (show k + 1 + 1 = frameCount payload.length p by omega), Nat.succ_mul]
    have hnopad : padLength payload.length p = 0 := padLength_of_lt (by omega)
    obtain ⟨hd, hcrc⟩ := fillFrame_of_payload_end_eq_slice (payload := payload) (p := p) (off := k * p) (cap := p)
      (by omega) (by omega) (by omega) (by omega)
    rw [paddedPayload_eq, hnopad, zeros_zero, List.append_nil] at hcrc
    exact ⟨hd, hcrc⟩

/-- The last round places the rest of the transfer's bytes. -/
theorem fillFrame_of_last_frame {payload : List Byte} {p k : Nat} (hp : 2 ≤ p) (hp' : p ≤ 63)
    (hlast : k + 1 = frameCount payload.length p) :
    (fillFrame payload p (quantize (lastShare payload.length p + 1) - 1) (k * p) (crc16 payload)).d =
      slice (transferBytes payload p) (k * p) (k * p + (quantize (lastShare payload.length p + 1) - 1)) := by
  have hpos : 0 < p := by omega
  have hshare : lastShare payload.length p = payload.length + 2 - k * p := lastShare_of_last hlast
  obtain ⟨hlow, hhigh⟩ := lastShare_range (n := payload.length) hpos
  by_cases halone : k * p = payload.length + 1
  · have hone : lastShare payload.length p = 1 := by omega
    have hcap : quantize (1 + 1) - 1 = 1 := rfl
    rw [hone, hcap, fillFrame_d_of_high_placed _ halone, halone, slice,
      drop_transferBytes_high (padLength_of_lt (by omega)), Nat.add_sub_cancel_left]
    rfl
  · have hfill := lastShare_add_padLength (n := payload.length) hpos hp'
    obtain ⟨hd, -⟩ := fillFrame_of_payload_end_eq_slice (payload := payload) (p := p) (off := k * p)
      (cap := quantize (lastShare payload.length p + 1) - 1) (by omega) (by omega) (by omega) (by omega)
    exact hd

/-- The bytes of any round are the transfer's own from the cursor on. -/
theorem fillFrame_eq_slice {payload : List Byte} {p k : Nat} (hp : 2 ≤ p) (hp' : p ≤ 63)
    (hfull : quantize (p + 1) = p + 1) (hk : k < frameCount payload.length p) :
    (fillFrame payload p (multiFrameLength p (payload.length + 2 - k * p) - 1) (k * p) (crc16 payload)).d =
        slice (transferBytes payload p) (k * p) (k * p + (multiFrameLength p (payload.length + 2 - k * p) - 1)) ∧
      (k + 1 < frameCount payload.length p →
        (fillFrame payload p (multiFrameLength p (payload.length + 2 - k * p) - 1) (k * p) (crc16 payload)).crc =
          crc16 payload) := by
  have hpos : 0 < p := by omega
  by_cases hnext : k + 1 < frameCount payload.length p
  · have hend : k * p + p < payload.length + 2 := (succ_lt_frameCount_iff hpos).mp hnext
    obtain ⟨hd, hcrc⟩ := fillFrame_of_more_frames hp hnext
    rw [multiFrameLength_of_le (by omega), Nat.add_sub_cancel]
    exact ⟨hd, fun _ => hcrc⟩
  · have hlast : k + 1 = frameCount payload.length p := by omega
    rw [multiFrameLength_of_last hpos hfull hlast]
    exact ⟨fillFrame_of_last_frame hp hp' hlast, fun h => absurd h hnext⟩

/-! ### The loop -/

/-- Tail byte `k` of `n` is one that `make_tail_byte` gives: only tail 0 has the start bit, and its toggle is set
(43_tail_byte.md R175). -/
theorem makeTailByte_sequence (k n : Nat) (tid : BitVec 8) :
    makeTailByte (k == 0) (k + 1 == n) (k % 2 == 0) tid = .ok (sequenceTail k n tid) := by
  obtain ⟨hstart, htoggle, -⟩ | ⟨-, hok⟩ := makeTailByte_cases (k == 0) (k + 1 == n) (k % 2 == 0) tid
  · rw [beq_iff_eq.mp hstart] at htoggle
    cases htoggle
  · exact hok

theorem toggle_succ (k : Nat) : (!(k % 2 == 0)) = ((k + 1) % 2 == 0) := by
  obtain h | h := Nat.mod_two_eq_zero_or_one k
  · rw [h, show (k + 1) % 2 = 1 by omega]; rfl
  · rw [h, show (k + 1) % 2 = 0 by omega]; rfl

/-- From frame `k` on the loop makes the rest of the closed form; before every round that makes a frame the running
CRC is the payload's. -/
theorem multiFrameLoop_eq_closed (xid : CanId) (tid : BitVec 8) (payload : List Byte) {p : Nat} (mtu : Nat) (hp : 2 ≤ p)
    (hp' : p ≤ 63) (hfull : quantize (p + 1) = p + 1) {m k fuel : Nat} (hk : k + m = frameCount payload.length p)
    (hfuel : m ≤ fuel) {c : CrcState} (hc : 0 < m → c = crc16 payload) :
    multiFrameLoop xid tid payload p mtu fuel (k == 0) (k % 2 == 0) (min (k * p) (payload.length + 2)) c =
      .ok ((List.range' k m).map (closedFrame xid tid payload p mtu)) := by
  have hpos : 0 < p := by omega
  induction m generalizing k fuel c with
  | zero =>
    have hdone : ¬k * p < payload.length + 2 := by rw [← lt_frameCount_iff hpos]; omega
    exact multiFrameLoop_done _ _ _ _ _ _ _ _ _ _ (by omega)
  | succ m ih =>
    obtain ⟨fuel, rfl⟩ := Nat.exists_eq_succ_of_ne_zero (show fuel ≠ 0 by omega)
    obtain rfl := hc (Nat.succ_pos m)
    have hlt : k < frameCount payload.length p := by omega
    have hcursor : k * p < payload.length + 2 := (lt_frameCount_iff hpos).mp hlt
    obtain ⟨hd, hcrc⟩ := fillFrame_eq_slice hp hp' hfull hlt
    obtain ⟨-, hoff⟩ := fillFrame_round (payload := payload) (p := p) (crc16 payload) hp hp' hcursor
    have hend : decide (payload.length + 2 ≤ min (k * p + p) (payload.length + 2)) =
        (k + 1 == frameCount payload.length p) := by
      have hnext := succ_lt_frameCount_iff (n := payload.length) (k := k) hpos
      rw [beq_eq_decide]
      exact decide_eq_decide.mpr (by omega)
    have not_first : (k + 1 == 0) = false := rfl
    have hrest := ih (k := k + 1) (fuel := fuel) (by omega) (by omega) fun hm => hcrc (by omega)
    rw [not_first, ← toggle_succ, Nat.succ_mul] at hrest
    rw [min_eq_left hcursor.le, multiFrameLoop_round hcursor (by rw [hoff, hend]; exact makeTailByte_sequence _ _ tid),
      hoff, hrest, List.range'_succ, List.map_cons, closedFrame_eq xid tid payload mtu hpos hp' hfull hlt, hd]
    rfl

theorem multiFrame_eq_closed (xid : CanId) (tid : BitVec 8) (payload : List Byte) {p : Nat} (mtu : Nat) (hp : 2 ≤ p)
    (hp' : p ≤ 63) (hfull : quantize (p + 1) = p + 1) :
    multiFrame xid tid payload p mtu =
      .ok ((List.range (frameCount payload.length p)).map (closedFrame xid tid payload p mtu)) := by
  have hpos : 0 < p := by omega
  have hfuel : frameCount payload.length p ≤ payload.length + 2 := by
    have hnone : ¬payload.length + 2 < frameCount payload.length p := by
      rw [lt_frameCount_iff hpos]
      exact Nat.not_lt.mpr (Nat.le_mul_of_pos_right _ hpos)
    omega
  have hloop := multiFrameLoop_eq_closed xid tid payload mtu hp hp' hfull (Nat.zero_add _) hfuel fun _ => rfl
  rw [Nat.zero_mul, Nat.zero_min] at hloop
  rw [List.range_eq_range']
  exact hloop

/-- The presentation MTU of a legal MTU: a full frame is as long as MTU, and MTU is a frame length (R180). -/
theorem presentationMtu_spec {mtu : BitVec 7} (h : legalMtu mtu.toNat = true) :
    7 ≤ presentationMtu mtu ∧ presentationMtu mtu ≤ 63 ∧ presentationMtu mtu + 1 = mtu.toNat ∧
      quantize (presentationMtu mtu + 1) = presentationMtu mtu + 1 := by
  obtain ⟨hlow, hhigh⟩ := legalMtu_range h
  have hp : presentationMtu mtu + 1 = mtu.toNat := by rw [presentationMtu_of_legal h]; omega
  exact ⟨by omega, by omega, hp, by rw [hp, quantize_of_legalMtu h]⟩

/-- The whole transfer with its CRC has residue 0 (40_crc.md R125). -/
theorem crc16_transferBytes (payload : List Byte) (p : Nat) : crc16 (transferBytes payload p) = 0 :=
  crc16_append_crc (paddedPayload payload p)

/-- Settles O45: the loop by `multiFrameLoop_eq_closed`, the share of the last frame by R185's count, and the residue of
the transfer's bytes; padding needs a share of at least 8, since shorter lengths round to themselves. -/
theorem multiFrameLoopEqualsItsClosedForm : Obligations.MultiFrameLoopEqualsItsClosedForm := by
  unfold Obligations.MultiFrameLoopEqualsItsClosedForm
  refine ⟨fun xid tid payload mtu hmtu _ => ?closed, fun r hr hpad => ?padding, rfl, rfl, rfl⟩
  case closed =>
    obtain ⟨hlow, hhigh, -, hfull⟩ := presentationMtu_spec hmtu
    obtain ⟨hone, hle⟩ := lastShare_range (n := payload.length) (show 0 < presentationMtu mtu by omega)
    exact ⟨multiFrame_eq_closed xid tid payload mtu.toNat (by omega) hhigh hfull, hone, hle,
      crc16_transferBytes payload _⟩
  case padding =>
    by_contra hshort
    rw [quantize_eq (by omega), if_pos (by omega)] at hpad
    omega

end Sys2Proof.Machine

namespace Sys2Proof.Machine

/-! ## The frames of a transfer (44_fragmenter.md R181 to R186, R192) -/

/-- What every frame of a transfer is: its place `k` of `n` in the tail byte, a frame length of at most MTU, and a
buffer of MTU bytes, the body, the tail byte and zeros (30_encoding.md R97, 43_tail_byte.md R175). -/
structure OutboundFrame.AtPlace (xid : CanId) (tid : BitVec 8) (mtu k n : Nat) (f : OutboundFrame) : Prop where
  eq_frameOf : f = frameOf xid f.len f.body (sequenceTail k n tid) (mtu - f.len)
  body_length : f.body.length = f.len - 1
  one_le : 1 ≤ f.len
  le_mtu : f.len ≤ mtu
  quantize_len : quantize f.len = f.len

theorem frameOf_atPlace {xid : CanId} {tid : BitVec 8} {mtu k n len : Nat} {d : List Byte} (hd : d.length = len - 1)
    (hone : 1 ≤ len) (hle : len ≤ mtu) (hlen : quantize len = len) :
    (frameOf xid len d (sequenceTail k n tid) (mtu - len)).AtPlace xid tid mtu k n :=
  ⟨by rw [frameOf_body hd]; rfl, by rw [frameOf_body hd]; exact hd, hone, hle, hlen⟩

theorem quantize_idem (n : Nat) (h : n ≤ 64) : quantize (quantize n) = quantize n :=
  quantize_dlcLen (lenDlc_le n h)

theorem closedFrame_atPlace (xid : CanId) (tid : BitVec 8) (payload : List Byte) {mtu : BitVec 7}
    (hmtu : legalMtu mtu.toNat = true) {k : Nat} (hk : k < frameCount payload.length (presentationMtu mtu)) :
    (closedFrame xid tid payload (presentationMtu mtu) mtu.toNat k).AtPlace xid tid mtu.toNat k
      (frameCount payload.length (presentationMtu mtu)) := by
  obtain ⟨hlow, hhigh, hsucc, hfull⟩ := presentationMtu_spec hmtu
  have hpos : 0 < presentationMtu mtu := by omega
  by_cases hnext : k + 1 < frameCount payload.length (presentationMtu mtu)
  · rw [closedFrame_of_next xid tid payload mtu.toNat hnext]
    exact frameOf_atPlace (slice_length_of_next payload hpos hnext) (by omega) hsucc.le hfull
  · have hlast : k + 1 = frameCount payload.length (presentationMtu mtu) := by omega
    obtain ⟨hone, hle⟩ := lastShare_range (n := payload.length) hpos
    have hfill := lastShare_add_padLength (n := payload.length) hpos hhigh
    have hfit := quantize_mono (Nat.succ_le_succ hle) (show presentationMtu mtu + 1 ≤ 64 by omega)
    rw [closedFrame_of_last xid tid payload mtu.toNat hlast]
    exact frameOf_atPlace (drop_length_of_last payload hpos hhigh hlast) (by omega)
      (hfit.trans_eq (hfull.trans hsucc)) (quantize_idem _ (by omega))

/-- Successive slices of one size are a first part of the sequence. -/
theorem flatMap_slices (s : List Byte) (p m : Nat) :
    (List.range m).flatMap (fun k => slice s (k * p) (k * p + p)) = s.take (m * p) := by
  induction m with
  | zero => rw [Nat.zero_mul]; rfl
  | succ m ih =>
    rw [List.range_succ, List.flatMap_append, ih, List.flatMap_singleton, slice, Nat.add_sub_cancel_left, Nat.succ_mul,
      List.take_add]

/-- The bodies of the closed form, in order, are the transfer's bytes (R185). -/
theorem flatMap_body_closedFrames (xid : CanId) (tid : BitVec 8) (payload : List Byte) {p : Nat} (mtu : Nat)
    (hp : 0 < p) (hp' : p ≤ 63) :
    ((List.range (frameCount payload.length p)).map (closedFrame xid tid payload p mtu)).flatMap OutboundFrame.body =
      transferBytes payload p := by
  obtain ⟨m, hm⟩ := Nat.exists_eq_succ_of_ne_zero (frameCount_pos (n := payload.length) hp).ne'
  have hlast : m + 1 = frameCount payload.length p := hm.symm
  have hfull : ∀ k ∈ List.range m, (closedFrame xid tid payload p mtu k).body =
      slice (transferBytes payload p) (k * p) (k * p + p) := by
    intro k hk
    have hnext : k + 1 < frameCount payload.length p := by have := List.mem_range.mp hk; omega
    rw [closedFrame_of_next xid tid payload mtu hnext]
    exact frameOf_body (slice_length_of_next payload hp hnext)
  rw [← hlast, List.flatMap_map, List.range_succ, List.flatMap_append, List.flatMap_congr hfull, flatMap_slices,
    List.flatMap_singleton, closedFrame_of_last xid tid payload mtu hlast,
    frameOf_body (drop_length_of_last payload hp hp' hlast), List.take_append_drop]

/-! ### `create_packet` under a legal MTU -/

section Transfer
variable {priority : BitVec 3} {k : TransferKind} {portId : BitVec 16} {remote tid : BitVec 8} {payload : List Byte}
  {loc : BitVec 8} {mtu : BitVec 7} {fs : List OutboundFrame}

theorem makeCanId_of_createPacket_eq_ok
    (h : createPacket priority k portId remote tid payload loc mtu = .ok fs) :
    ∃ xid, makeCanId priority k portId remote payload loc mtu = .ok xid := by
  by_cases haccepted : idAccepted priority k portId remote payload loc mtu
  · exact makeCanId_of_accepted haccepted
  · rw [createPacket_of_not_accepted tid haccepted] at h
    cases h

/-- A payload of at most the presentation MTU is one frame. -/
theorem createPacket_eq_single {xid : CanId} (hmtu : legalMtu mtu.toNat = true)
    (hxid : makeCanId priority k portId remote payload loc mtu = .ok xid)
    (hlen : payload.length ≤ presentationMtu mtu) :
    createPacket priority k portId remote tid payload loc mtu =
      .ok [frameOf xid (quantize (payload.length + 1))
        (payload ++ zeros (quantize (payload.length + 1) - 1 - payload.length)) (sequenceTail 0 1 tid)
        (mtu.toNat - quantize (payload.length + 1))] := by
  have hmax : presentationMtu mtu ≤ 63 := presentationMtu_le mtu
  rw [createPacket, hxid]
  simp only [if_pos hlen]
  exact singleFrame_of_round (roundUpFrameLength_of_le (by omega)) (quantize_succ_le_mtu hmtu hlen)
    (makeTailByte_sequence 0 1 tid)

/-- A longer payload is the closed form. -/
theorem createPacket_eq_multi {xid : CanId} (hmtu : legalMtu mtu.toNat = true)
    (hxid : makeCanId priority k portId remote payload loc mtu = .ok xid)
    (hlen : presentationMtu mtu < payload.length) :
    createPacket priority k portId remote tid payload loc mtu =
      .ok ((List.range (frameCount payload.length (presentationMtu mtu))).map
        (closedFrame xid tid payload (presentationMtu mtu) mtu.toNat)) := by
  obtain ⟨hlow, hhigh, -, hfull⟩ := presentationMtu_spec hmtu
  rw [createPacket, hxid]
  simp only [if_neg (Nat.not_le.mpr hlen)]
  exact multiFrame_eq_closed xid tid payload mtu.toNat (by omega) hhigh hfull

/-- Every frame of a transfer is at its place. -/
theorem createPacket_atPlace {xid : CanId} (hmtu : legalMtu mtu.toNat = true)
    (hxid : makeCanId priority k portId remote payload loc mtu = .ok xid)
    (h : createPacket priority k portId remote tid payload loc mtu = .ok fs) (j : Nat) (hj : j < fs.length) :
    fs[j].AtPlace xid tid mtu.toNat j fs.length := by
  by_cases hlen : payload.length ≤ presentationMtu mtu
  · obtain rfl := Except.ok.inj (h.symm.trans (createPacket_eq_single hmtu hxid hlen))
    obtain rfl : j = 0 := Nat.lt_one_iff.mp hj
    have hmax : presentationMtu mtu ≤ 63 := presentationMtu_le mtu
    have hround := le_quantize (payload.length + 1) (by omega)
    refine frameOf_atPlace ?_ (by omega) (quantize_succ_le_mtu hmtu hlen) (quantize_idem _ (by omega))
    rw [List.length_append, zeros_length]
    omega
  · obtain rfl := Except.ok.inj (h.symm.trans (createPacket_eq_multi hmtu hxid (Nat.not_le.mp hlen)))
    rw [List.length_map, List.length_range] at hj ⊢
    rw [List.getElem_map, List.getElem_range]
    exact closedFrame_atPlace xid tid payload hmtu hj

/-- The number of frames of a transfer under a legal MTU (R186). -/
theorem createPacket_length (hmtu : legalMtu mtu.toNat = true)
    (h : createPacket priority k portId remote tid payload loc mtu = .ok fs) :
    fs.length =
      if payload.length ≤ presentationMtu mtu then 1 else frameCount payload.length (presentationMtu mtu) := by
  obtain ⟨xid, hxid⟩ := makeCanId_of_createPacket_eq_ok h
  split
  case isTrue hlen =>
    obtain rfl := Except.ok.inj (h.symm.trans (createPacket_eq_single hmtu hxid hlen))
    rfl
  case isFalse hlen => exact createPacket_length_of_multi hmtu hxid h (Nat.not_le.mp hlen)

/-- The bodies of a transfer's frames, in order (R192). -/
theorem createPacket_bodies (hmtu : legalMtu mtu.toNat = true)
    (h : createPacket priority k portId remote tid payload loc mtu = .ok fs) :
    fs.flatMap OutboundFrame.body =
      if payload.length ≤ presentationMtu mtu then
        payload ++ zeros (quantize (payload.length + 1) - 1 - payload.length)
      else transferBytes payload (presentationMtu mtu) := by
  obtain ⟨xid, hxid⟩ := makeCanId_of_createPacket_eq_ok h
  obtain ⟨hlow, hhigh, -, -⟩ := presentationMtu_spec hmtu
  split
  case isTrue hlen =>
    obtain rfl := Except.ok.inj (h.symm.trans (createPacket_eq_single hmtu hxid hlen))
    have hround := le_quantize (payload.length + 1) (by omega)
    rw [List.flatMap_singleton, frameOf_body]
    rw [List.length_append, zeros_length]
    omega
  case isFalse hlen =>
    obtain rfl := Except.ok.inj (h.symm.trans (createPacket_eq_multi hmtu hxid (Nat.not_le.mp hlen)))
    exact flatMap_body_closedFrames xid tid payload mtu.toNat (by omega) hhigh

end Transfer

/-! ### What a frame at its place holds -/

section AtPlace
variable {xid : CanId} {tid : BitVec 8} {mtu k n : Nat} {f : OutboundFrame}

theorem OutboundFrame.AtPlace.xid_eq (h : f.AtPlace xid tid mtu k n) : f.xid = xid := by
  rw [h.eq_frameOf]; rfl

theorem OutboundFrame.AtPlace.tailByte_eq (h : f.AtPlace xid tid mtu k n) : f.tailByte = sequenceTail k n tid := by
  rw [h.eq_frameOf]
  exact frameOf_tailByte h.body_length

/-- The buffer is the body, the tail byte and zeros to MTU. -/
theorem OutboundFrame.AtPlace.data_eq (h : f.AtPlace xid tid mtu k n) :
    f.data = f.body ++ [sequenceTail k n tid] ++ zeros (mtu - f.len) :=
  congrArg OutboundFrame.data h.eq_frameOf

theorem OutboundFrame.AtPlace.valid_length (h : f.AtPlace xid tid mtu k n) :
    (f.body ++ [sequenceTail k n tid]).length = f.len := by
  have hone := h.one_le
  rw [List.length_append, h.body_length, List.length_singleton]
  omega

theorem OutboundFrame.AtPlace.data_length (h : f.AtPlace xid tid mtu k n) : f.data.length = mtu := by
  have hle := h.le_mtu
  rw [h.data_eq, List.length_append, h.valid_length, zeros_length]
  omega

theorem OutboundFrame.AtPlace.drop_len (h : f.AtPlace xid tid mtu k n) : f.data.drop f.len = zeros (mtu - f.len) := by
  rw [h.data_eq, List.drop_left' h.valid_length]

/-- The flags and the transfer-id of the sequence law (43_tail_byte.md R175). -/
theorem OutboundFrame.AtPlace.decodeTail_tailByte (h : f.AtPlace xid tid mtu k n) : decodeTail f.tailByte =
    { startBit := decide (k = 0), endBit := decide (k + 1 = n), toggle := decide (k % 2 = 0),
      transferId := tid.extractLsb 4 0 } := by
  rw [h.tailByte_eq, decodeTail_of_makeTailByte (makeTailByte_sequence k n tid)]
  simp only [beq_eq_decide]

end AtPlace

/-! ## The laws of a transfer -/

/-- Settles O24: a state folded with its own two bytes is 0, and the bodies of a multi-frame transfer end in the CRC of
what stands before it. -/
theorem crcResidueIsZero : Obligations.CrcResidueIsZero := by
  unfold Obligations.CrcResidueIsZero
  refine ⟨crc16_append_crc, fun xid tid payload mtu fs hmtu _ hfs => ?frames⟩
  obtain ⟨hlow, hhigh, -, hfull⟩ := presentationMtu_spec hmtu
  obtain rfl := Except.ok.inj (hfs.symm.trans (multiFrame_eq_closed xid tid payload mtu.toNat (by omega) hhigh hfull))
  rw [flatMap_body_closedFrames xid tid payload mtu.toNat (by omega) hhigh, crc16_transferBytes]

/-- Settles O47: no error of `create_packet` is InvalidState, and each frame is at its place. -/
theorem tailBytesFollowTheSequenceLaw : Obligations.TailBytesFollowTheSequenceLaw := by
  unfold Obligations.TailBytesFollowTheSequenceLaw
  intro prio k portId remote tid payload loc mtu hmtu
  refine ⟨fun h => ?noError, fun fs hfs j hj => ?law⟩
  case noError => obtain hsize | hid := createPacket_error h <;> contradiction
  case law =>
    obtain ⟨xid, hxid⟩ := makeCanId_of_createPacket_eq_ok hfs
    exact (createPacket_atPlace hmtu hxid hfs j hj).decodeTail_tailByte

/-- A frame length of at least 1 is the length of a DLC from 1 to 15. -/
theorem exists_dlcLen_eq {n : Nat} (hone : 1 ≤ n) (hle : n ≤ 64) (h : quantize n = n) :
    ∃ d, 1 ≤ d ∧ d ≤ 15 ∧ n = dlcLen d := by
  refine ⟨lenDlc n, Nat.one_le_iff_ne_zero.mpr fun hzero => ?_, lenDlc_le n hle, h.symm⟩
  rw [quantize, hzero] at h
  exact absurd h (show dlcLen 0 ≠ n from Nat.ne_of_lt hone)

/-- Settles O48: each frame is at its place, and the bodies are those of `createPacket_bodies`, a single frame's without
CRC. -/
theorem framesCarryTheTransferInOrder : Obligations.FramesCarryTheTransferInOrder := by
  unfold Obligations.FramesCarryTheTransferInOrder
  intro prio k portId remote tid payload loc mtu fs hmtu hfs
  obtain ⟨xid, hxid⟩ := makeCanId_of_createPacket_eq_ok hfs
  refine ⟨fun f hf => ?frame, ?bodies⟩
  case frame =>
    obtain ⟨j, hj, rfl⟩ := List.mem_iff_getElem.mp hf
    have hplace := createPacket_atPlace hmtu hxid hfs j hj
    have hmax : mtu.toNat ≤ 64 := (legalMtu_range hmtu).2
    exact ⟨by rw [hplace.xid_eq, hxid], by rw [hplace.decodeTail_tailByte],
      exists_dlcLen_eq hplace.one_le (hplace.le_mtu.trans hmax) hplace.quantize_len, hplace.le_mtu, hplace.data_length,
      hplace.drop_len⟩
  case bodies =>
    rw [createPacket_bodies hmtu hfs]
    by_cases hlen : payload.length ≤ presentationMtu mtu
    · exact ⟨_, by rw [if_pos hlen, if_pos hlen, List.append_nil]⟩
    · exact ⟨padLength payload.length (presentationMtu mtu), by rw [if_neg hlen, if_neg hlen]; rfl⟩

/-! ### Where the CRC bytes fall (R186) -/

/-- The last frame of the closed form. -/
theorem getLast?_closedFrames (xid : CanId) (tid : BitVec 8) (payload : List Byte) {p : Nat} (mtu : Nat) (hp : 0 < p) :
    ((List.range (frameCount payload.length p)).map (closedFrame xid tid payload p mtu)).getLast? =
      some (closedFrame xid tid payload p mtu (frameCount payload.length p - 1)) := by
  have hpos := frameCount_pos (n := payload.length) hp
  rw [List.getLast?_map, List.getLast?_range, if_neg hpos.ne']
  rfl

theorem two_le_frameCount {n p : Nat} (hp : 0 < p) (h : p < n) : 2 ≤ frameCount n p :=
  (lt_frameCount_iff (k := 1) hp).mpr (by omega)

/-- The length and the body of the last frame of a multi-frame transfer. -/
theorem lastFrame_of_multi {priority : BitVec 3} {k : TransferKind} {portId : BitVec 16} {remote tid : BitVec 8}
    {payload : List Byte} {loc : BitVec 8} {mtu : BitVec 7} {fs : List OutboundFrame} {f : OutboundFrame}
    (hmtu : legalMtu mtu.toNat = true)
    (hfs : createPacket priority k portId remote tid payload loc mtu = .ok fs)
    (hlen : presentationMtu mtu < payload.length) (hf : fs.getLast? = some f) :
    f.len = quantize (lastShare payload.length (presentationMtu mtu) + 1) ∧
      f.body = (transferBytes payload (presentationMtu mtu)).drop
        (payload.length + 2 - lastShare payload.length (presentationMtu mtu)) := by
  obtain ⟨xid, hxid⟩ := makeCanId_of_createPacket_eq_ok hfs
  obtain ⟨hlow, hhigh, -, hfull⟩ := presentationMtu_spec hmtu
  have hpos : 0 < presentationMtu mtu := by omega
  obtain ⟨m, hm⟩ := Nat.exists_eq_succ_of_ne_zero (frameCount_pos (n := payload.length) hpos).ne'
  have hlast : m + 1 = frameCount payload.length (presentationMtu mtu) := hm.symm
  have hcursor : m * presentationMtu mtu < payload.length + 2 := (lt_frameCount_iff hpos).mp (by omega)
  have hoff : payload.length + 2 - lastShare payload.length (presentationMtu mtu) = m * presentationMtu mtu := by
    rw [lastShare_of_last hlast]; omega
  obtain rfl := Except.ok.inj (hfs.symm.trans (createPacket_eq_multi hmtu hxid hlen))
  rw [getLast?_closedFrames xid tid payload mtu.toNat hpos, ← hlast, Nat.add_sub_cancel,
    closedFrame_of_last xid tid payload mtu.toNat hlast] at hf
  obtain rfl := Option.some.inj hf
  rw [hoff]
  exact ⟨rfl, frameOf_body (drop_length_of_last payload hpos hhigh hlast)⟩

/-- Settles O46: the counts of `createPacket_length`; the last frame's body is the transfer's bytes from its share on,
which without padding for a share of 1 or 2 is the CRC alone. -/
theorem frameCountFollowsPayloadLength : Obligations.FrameCountFollowsPayloadLength := by
  unfold Obligations.FrameCountFollowsPayloadLength
  refine ⟨fun prio k portId remote tid payload loc mtu fs hmtu hfs => ⟨fun hlen => ?single, fun hlen => ?multi⟩,
    fun n => ?counts⟩
  case single => rw [createPacket_length hmtu hfs, if_pos hlen]
  case counts =>
    simp only [frameCount]
    omega
  case multi =>
    obtain ⟨hlow, hhigh, -, -⟩ := presentationMtu_spec hmtu
    have hpos : 0 < presentationMtu mtu := by omega
    have hcount : fs.length = frameCount payload.length (presentationMtu mtu) := by
      rw [createPacket_length hmtu hfs, if_neg (Nat.not_le.mpr hlen)]
    refine ⟨hcount, hcount ▸ two_le_frameCount hpos hlen, fun f hf => ?_⟩
    obtain ⟨hflen, hbody⟩ := lastFrame_of_multi hmtu hfs hlen hf
    refine ⟨fun hone => ?one, fun htwo => ?two, fun hmore => ?more⟩
    case one =>
      rw [hone] at hflen hbody
      exact ⟨hflen, hbody.trans (drop_transferBytes_high (padLength_of_lt (by omega)))⟩
    case two =>
      rw [hbody, htwo, Nat.add_sub_cancel, drop_transferBytes _ le_rfl, paddedPayload_eq, padLength_of_lt (by omega),
        zeros_zero, List.append_nil, List.append_nil, List.drop_length]
      rfl
    case more =>
      rw [drop_transferBytes _ (by omega)] at hbody
      refine ⟨_, ?_, hbody⟩
      have hle := (lastShare_range (n := payload.length) hpos).2
      refine List.append_ne_nil_of_left_ne_nil (List.ne_nil_of_length_pos ?_) _
      rw [List.length_drop]
      omega

end Sys2Proof.Machine

namespace Sys2Proof.Machine

/-! ## The transfer-id counter (44_fragmenter.md R191)

Only the low five bits of a transfer-id reach a frame, and both moduli are multiples of 32. -/

theorem extractLsb'_low_congr {tid tid' : BitVec 8} (h : tid.toNat % 32 = tid'.toNat % 32) :
    tid.extractLsb' 0 5 = tid'.extractLsb' 0 5 := by
  apply BitVec.eq_of_toNat_eq
  rw [BitVec.extractLsb'_toNat, BitVec.extractLsb'_toNat, Nat.shiftRight_zero, Nat.shiftRight_zero]
  exact h

section LowBits
variable {tid tid' : BitVec 8} (h : tid.toNat % 32 = tid'.toNat % 32)
include h

theorem makeTailByte_congr (startBit endBit toggle : Bool) :
    makeTailByte startBit endBit toggle tid = makeTailByte startBit endBit toggle tid' := by
  rw [makeTailByte, makeTailByte, extractLsb'_low_congr h]

theorem singleFrame_congr (xid : CanId) (payload : List Byte) (mtu : Nat) :
    singleFrame xid tid payload mtu = singleFrame xid tid' payload mtu := by
  simp only [singleFrame, makeTailByte_congr h]

theorem multiFrameLoop_congr (xid : CanId) (payload : List Byte) (p mtu fuel : Nat) (first toggle : Bool) (off : Nat)
    (c : CrcState) : multiFrameLoop xid tid payload p mtu fuel first toggle off c =
      multiFrameLoop xid tid' payload p mtu fuel first toggle off c := by
  induction fuel generalizing first toggle off c with
  | zero => rfl
  | succ fuel ih => simp only [multiFrameLoop, makeTailByte_congr h, ih]

theorem createPacket_congr (priority : BitVec 3) (k : TransferKind) (portId : BitVec 16) (remote : BitVec 8)
    (payload : List Byte) (loc : BitVec 8) (mtu : BitVec 7) :
    createPacket priority k portId remote tid payload loc mtu =
      createPacket priority k portId remote tid' payload loc mtu := by
  simp only [createPacket, multiFrame, singleFrame_congr h, multiFrameLoop_congr h]

/-- The counter's low five bits advance alike under either modulus. -/
theorem nextTid_congr (m m' : TidModulus) : (nextTid m tid).toNat % 32 = (nextTid m' tid').toNat % 32 := by
  rw [toNat_nextTid, toNat_nextTid]
  cases m <;> cases m' <;> simp only [tidModulus] <;> omega

end LowBits

section SameButCounter
variable {s₁ s₂ : State} (h : SameButCounter s₁ s₂)
include h

theorem SameButCounter.subjectRxMsb : s₁.cfg.subjectRxMsb = s₂.cfg.subjectRxMsb := by
  rw [← h.cfg]

theorem SameButCounter.prioNominal : s₁.cfg.prioNominal = s₂.cfg.prioNominal := by
  rw [← h.cfg]

theorem SameButCounter.ibufCap : s₁.cfg.ibufCap = s₂.cfg.ibufCap := by
  rw [← h.cfg]

/-- The answers of a transfer do not show the modulus. -/
theorem SameButCounter.sendAnswer_eq (k : TransferKind) (portId : BitVec 16) (remote : BitVec 8) :
    sendAnswer s₁ k portId remote = sendAnswer s₂ k portId remote := by
  rw [sendAnswer, sendAnswer, h.prioNominal, State.ib_congr h.port, h.nodeId, h.mtu, createPacket_congr h.tid]

/-- Every answer but READ_STATE's is the same. -/
theorem SameButCounter.answer_eq {i : Instr} (hi : i ≠ .readState) : answer i s₁ = answer i s₂ := by
  have hib : s₁.ib = s₂.ib := State.ib_congr h.port
  cases i with
  | readState => exact absurd rfl hi
  | sendMessage | sendRequest | sendResponse => exact h.sendAnswer_eq _ _ _
  | crcCompute => rw [answer, answer, hib]
  | makeCanId => rw [answer, answer, hib, h.mtu]
  | unpackId => rw [answer, answer, h.subjectRxMsb]
  | createPacket => rw [answer, answer, hib, h.nodeId, h.mtu]
  | parseBuffer => rw [answer, answer, hib, h.mtu, h.subjectRxMsb]
  | _ => rfl

theorem SameButCounter.written (i : Instr) : SameButCounter (s₁.written i) (s₂.written i) := by
  cases i with
  | init node mtu => exact { h with nodeId := rfl, mtu := rfl, tid := rfl }
  | setNodeId node => exact { h with nodeId := rfl }
  | sendMessage | sendRequest | sendResponse => exact { h with tid := nextTid_congr h.tid _ _ }
  | _ => exact h

theorem SameButCounter.succeed (r₁ r₂ : BitVec 64) (o : List OutRecord) :
    SameButCounter (s₁.succeed r₁ o) (s₂.succeed r₂ o) := { h with status := rfl, out := rfl }

theorem SameButCounter.fail (e : ErrorKind) : SameButCounter (s₁.fail e) (s₂.fail e) :=
  { h with status := rfl, out := rfl }

theorem SameButCounter.retire : SameButCounter s₁.retire s₂.retire :=
  { h with port := congrArg List.tail h.port }

theorem SameButCounter.takeReset : SameButCounter s₁.takeReset s₂.takeReset :=
  { h with nodeId := rfl, mtu := rfl, tid := rfl, status := rfl, out := rfl, port := congrArg List.tail h.port }

/-- A command ends alike in both states; only READ_STATE shows TID, in RES. -/
theorem SameButCounter.conclude (i : Instr) :
    SameButCounter (s₁.conclude i (answer i s₁)) (s₂.conclude i (answer i s₂)) ∧
      (i ≠ .readState → (s₁.conclude i (answer i s₁)).res = (s₂.conclude i (answer i s₂)).res) := by
  by_cases hi : i = .readState
  · subst hi
    exact ⟨h.succeed _ _ _, fun hne => absurd rfl hne⟩
  · rw [h.answer_eq hi]
    cases answer i s₂ with
    | ok v => exact ⟨(h.written i).succeed _ _ _, fun _ => rfl⟩
    | error e => exact ⟨h.fail e, fun _ => rfl⟩

end SameButCounter

/-- A SEND_* advances TID when it succeeds, and keeps it when it fails. -/
theorem tid_of_isSend {i : Instr} (h : isSend i = true) {s t : State} (hexec : exec i s = .next t) :
    (t.status = 0 → t.tid.toNat = (s.tid.toNat + 1) % tidModulus s.cfg.tidModulus) ∧
      (t.status ≠ 0 → t.tid = s.tid) := by
  obtain rfl := exec_eq_next_iff.mp hexec
  cases answer i s with
  | ok v =>
    have htid := (congrArg BitVec.toNat (s.written_tid_of_isSend h)).trans (toNat_nextTid _ _)
    exact ⟨fun _ => htid, fun hne => absurd rfl hne⟩
  | error e => exact ⟨fun hok => absurd hok (errorCode_ne_ok e), fun _ => rfl⟩

/-- Settles O52: a SEND_* by its two endings; two states that agree but for the counter take the same branch of
`step`, and each branch keeps the agreement. -/
theorem counterModulusShowsOnlyInReadState : Obligations.CounterModulusShowsOnlyInReadState := by
  unfold Obligations.CounterModulusShowsOnlyInReadState
  refine ⟨fun i s t hsend hexec => tid_of_isSend hsend hexec, fun s₁ s₂ t₁ h hstep => ?_⟩
  obtain ⟨hport, rfl⟩ | ⟨rest, hport, rfl⟩ | ⟨cw, ib, rest, i, u, hport, hlen, hdecode, hexec, rfl⟩ |
    ⟨cw, ib, rest, why, hport, hlen, hdecode, rfl⟩ := step_cases hstep
  all_goals have hport₂ := h.port.symm.trans hport
  case inl =>
    exact ⟨s₂, by rw [step, hport₂], h, fun w ib rest hcommand => by rw [hport] at hcommand; cases hcommand⟩
  case inr.inl =>
    exact ⟨s₂.takeReset, by rw [step, hport₂], h.takeReset, fun _ _ _ _ _ => rfl⟩
  case inr.inr.inl =>
    obtain rfl := exec_eq_next_iff.mp hexec
    obtain ⟨hsame, hres⟩ := h.conclude i
    refine ⟨(s₂.conclude i (answer i s₂)).retire, ?_, hsame.retire, fun w ib' rest' hcommand hnot => hres ?_⟩
    · rw [step_command hport₂ (hlen.trans_eq h.ibufCap) hdecode, exec_eq, retireOutcome]
    · rintro rfl
      rw [hport] at hcommand
      cases hcommand
      exact hnot hdecode
  case inr.inr.inr =>
    exact ⟨(s₂.fail .illegalCommand).retire, step_rejected hport₂ (hlen.trans_eq h.ibufCap) hdecode,
      (h.fail _).retire, fun _ _ _ _ _ => rfl⟩

end Sys2Proof.Machine

namespace Sys2Proof.Machine

/-! ## Records parse one by one (45_rx_parser.md R225) -/

/-! ### A record is parsed from its own bytes -/

theorem byteAt_slice (s : List Byte) {a b i : Nat} (h : i < b - a) : byteAt (slice s a b) i = byteAt s (a + i) := by
  rw [byteAt, byteAt, slice, List.getD_eq_getElem?_getD, List.getD_eq_getElem?_getD, List.getElem?_take_of_lt h,
    List.getElem?_drop]

theorem slice_slice (s : List Byte) {a b i j : Nat} (h : j ≤ b - a) :
    slice (slice s a b) i j = slice s (a + i) (a + j) := by
  rw [slice, slice, slice, List.drop_take, List.take_take, List.drop_drop, Nat.add_sub_add_left,
    min_eq_left (Nat.sub_le_sub_right h i)]

theorem slice_append_right (a b : List Byte) (i j : Nat) :
    slice (a ++ b) (a.length + i) (a.length + j) = slice b i j := by
  rw [slice, slice, List.drop_append, List.drop_eq_nil_of_le (Nat.le_add_right _ _), List.nil_append,
    Nat.add_sub_cancel_left, Nat.add_sub_add_left]

/-- `parse_record` reads no byte outside its record. -/
theorem parseRecord_eq_slice (msb : SubjectRxMsb) (s : List Byte) (mtu b : Nat) :
    parseRecord msb s mtu b = parseRecord msb (slice s b (b + (mtu + 8))) mtu 0 := by
  have hbyte (i : Nat) (hi : i < mtu + 8) : byteAt (slice s b (b + (mtu + 8))) (0 + i) = byteAt s (b + i) := by
    rw [Nat.zero_add, byteAt_slice s (by omega)]
  have hxid : canIdOf (readField32 (slice s b (b + (mtu + 8))) 0) = canIdOf (readField32 s b) := by
    apply BitVec.eq_of_toNat_eq
    rw [toNat_canIdOf_readField32, toNat_canIdOf_readField32, hbyte 1 (by omega), hbyte 2 (by omega),
      hbyte 3 (by omega), show byteAt (slice s b (b + (mtu + 8))) 0 = byteAt s b from hbyte 0 (by omega)]
  have hdlc : headerDlc (readField32 (slice s b (b + (mtu + 8))) (0 + 4)) = headerDlc (readField32 s (b + 4)) := by
    apply BitVec.eq_of_toNat_eq
    rw [toNat_headerDlc_readField32, toNat_headerDlc_readField32, hbyte 6 (by omega)]
  have htail (ld : Nat) (hpos : 1 ≤ ld) (hle : ld ≤ mtu) :
      byteAt (slice s b (b + (mtu + 8))) (0 + 8 + ld - 1) = byteAt s (b + 8 + ld - 1) := by
    rw [show 0 + 8 + ld - 1 = 0 + (7 + ld) by omega, hbyte _ (by omega), show b + (7 + ld) = b + 8 + ld - 1 by omega]
  have hpayload (ld : Nat) (hpos : 1 ≤ ld) (hle : ld ≤ mtu) :
      slice (slice s b (b + (mtu + 8))) (0 + 8) (0 + 8 + ld - 1) = slice s (b + 8) (b + 8 + ld - 1) := by
    rw [slice_slice s (by omega), show b + (0 + 8) = b + 8 by omega,
      show b + (0 + 8 + ld - 1) = b + 8 + ld - 1 by omega]
  simp only [parseRecord, recordHeader, hxid, hdlc]
  split
  case isTrue => rfl
  case isFalse hlegal => rw [htail _ (by omega) (by omega), hpayload _ (by omega) (by omega)]

/-- A record inside the first part of the input. -/
theorem parseRecord_append_left (msb : SubjectRxMsb) {x : List Byte} (y : List Byte) {mtu b : Nat}
    (h : b + (mtu + 8) ≤ x.length) : parseRecord msb (x ++ y) mtu b = parseRecord msb x mtu b := by
  rw [parseRecord_eq_slice, slice_append_left h, ← parseRecord_eq_slice]

/-- A record inside the second part of the input. -/
theorem parseRecord_append_right (msb : SubjectRxMsb) (x y : List Byte) (mtu b : Nat) :
    parseRecord msb (x ++ y) mtu (x.length + b) = parseRecord msb y mtu b := by
  rw [parseRecord_eq_slice, Nat.add_assoc, slice_append_right, ← parseRecord_eq_slice]

/-! ### Whole inputs -/

/-- `parse` answers exactly when the input is a whole number of legal records. -/
theorem exists_parseBuffer_eq_ok_iff {msb : SubjectRxMsb} {ib : List Byte} {mtu : Nat} :
    (∃ rs, parseBuffer msb ib mtu = .ok rs) ↔ ib.length % (mtu + 8) = 0 ∧
      ∀ j, j < ib.length / (mtu + 8) → ∃ r, parseRecord msb ib mtu (j * (mtu + 8)) = .ok r := by
  constructor
  · rintro ⟨rs, hrs⟩
    obtain ⟨hmod, hlen, hall⟩ := parseBuffer_eq_ok_iff.mp hrs
    exact ⟨hmod, fun j hj => ⟨_, hall j (by omega)⟩⟩
  · rintro ⟨hmod, hall⟩
    exact exists_parseBuffer_eq_ok hmod hall

section Append
variable {msb : SubjectRxMsb} {mtu : Nat} {x y : List Byte} (hx : x.length % (mtu + 8) = 0)
include hx

/-- The records of the first part stand in the same places. -/
theorem parseRecord_append_of_lt {j : Nat} (hj : j < x.length / (mtu + 8)) :
    parseRecord msb (x ++ y) mtu (j * (mtu + 8)) = parseRecord msb x mtu (j * (mtu + 8)) := by
  refine parseRecord_append_left msb y ?_
  rw [← Nat.succ_mul]
  exact (Nat.mul_le_mul_right _ hj).trans_eq (Nat.div_mul_cancel (Nat.dvd_of_mod_eq_zero hx))

/-- The records of the second part follow them. -/
theorem parseRecord_append_add (j : Nat) :
    parseRecord msb (x ++ y) mtu ((x.length / (mtu + 8) + j) * (mtu + 8)) =
      parseRecord msb y mtu (j * (mtu + 8)) := by
  rw [Nat.add_mul, Nat.div_mul_cancel (Nat.dvd_of_mod_eq_zero hx), parseRecord_append_right]

theorem append_length_div : (x ++ y).length / (mtu + 8) = x.length / (mtu + 8) + y.length / (mtu + 8) := by
  rw [List.length_append, Nat.add_div_of_dvd_right (Nat.dvd_of_mod_eq_zero hx)]

theorem append_length_mod : (x ++ y).length % (mtu + 8) = y.length % (mtu + 8) := by
  rw [List.length_append, Nat.add_mod, hx, Nat.zero_add, Nat.mod_mod]

theorem parseBuffer_append_of_ok {rx ry : List InboundFrame} (hrx : parseBuffer msb x mtu = .ok rx)
    (hry : parseBuffer msb y mtu = .ok ry) : parseBuffer msb (x ++ y) mtu = .ok (rx ++ ry) := by
  obtain ⟨-, hlenx, hallx⟩ := parseBuffer_eq_ok_iff.mp hrx
  obtain ⟨hmody, hleny, hally⟩ := parseBuffer_eq_ok_iff.mp hry
  refine parseBuffer_eq_ok_iff.mpr ⟨(append_length_mod hx).trans hmody, ?_, fun j hj => ?_⟩
  · rw [List.length_append, hlenx, hleny, append_length_div hx]
  · by_cases hjx : j < rx.length
    · rw [List.getElem_append_left hjx, parseRecord_append_of_lt hx (by omega), hallx j hjx]
    · obtain ⟨i, rfl⟩ := Nat.exists_eq_add_of_le (Nat.not_lt.mp hjx)
      rw [List.length_append] at hj
      have hget : (rx ++ ry)[rx.length + i] = ry[i] := by
        rw [List.getElem_append_right (Nat.le_add_right _ _)]
        simp only [Nat.add_sub_cancel_left]
      rw [hget, hlenx, parseRecord_append_add hx, hally i (by omega)]

/-- If the whole parses, both parts do. -/
theorem exists_parseBuffer_append_iff : (∃ rs, parseBuffer msb (x ++ y) mtu = .ok rs) ↔
    (∃ rx, parseBuffer msb x mtu = .ok rx) ∧ ∃ ry, parseBuffer msb y mtu = .ok ry := by
  constructor
  · intro hwhole
    obtain ⟨hmod, hall⟩ := exists_parseBuffer_eq_ok_iff.mp hwhole
    rw [append_length_mod hx] at hmod
    rw [append_length_div hx] at hall
    refine ⟨exists_parseBuffer_eq_ok hx fun j hj => ?_, exists_parseBuffer_eq_ok hmod fun j hj => ?_⟩
    · rw [← parseRecord_append_of_lt (y := y) hx hj]
      exact hall j (hj.trans_le (Nat.le_add_right _ _))
    · rw [← parseRecord_append_add (x := x) hx]
      exact hall _ (Nat.add_lt_add_left hj _)
  · rintro ⟨⟨rx, hrx⟩, ry, hry⟩
    exact ⟨rx ++ ry, parseBuffer_append_of_ok hx hrx hry⟩

end Append

/-- Settles O55: the records of the two parts are those of the whole, in order, so the whole parses exactly when both
parts do, to their concatenation. -/
theorem recordsParseIndependently : Obligations.RecordsParseIndependently := by
  unfold Obligations.RecordsParseIndependently
  intro msb mtu x y hx
  refine ⟨fun rx ry => parseBuffer_append_of_ok hx, fun hfail => parseBuffer_eq_error fun rs hrs => ?_,
    fun rx hrx => ?_⟩
  · obtain ⟨⟨rx, hrx⟩, ry, hry⟩ := (exists_parseBuffer_append_iff hx).mp ⟨rs, hrs⟩
    obtain hfail | hfail := hfail
    · rw [hrx] at hfail; cases hfail
    · rw [hry] at hfail; cases hfail
  · obtain ⟨-, hlen, -⟩ := parseBuffer_eq_ok_iff.mp hrx
    exact hlen

/-! ## The frames of a transfer as raw records (45_rx_parser.md R226) -/

/-! ### One frame -/

theorem rawRecord_length {f : OutboundFrame} {mtu : Nat} (h : f.data.length = mtu) :
    (rawRecord f).length = mtu + 8 := by
  rw [rawRecord, List.length_append, h, Nat.add_comm]
  rfl

/-- The four little-endian bytes of an identifier (20_memory.md R53). -/
theorem canIdOf_rawRecord (f : OutboundFrame) : canIdOf (readField32 (rawRecord f) 0) = f.xid := by
  apply BitVec.eq_of_toNat_eq
  have byte0 : (byteAt (rawRecord f) 0).toNat = f.xid.toNat % 256 := BitVec.extractLsb_toNat ..
  have byte1 : (byteAt (rawRecord f) (0 + 1)).toNat = f.xid.toNat / 2 ^ 8 % 256 := by
    rw [← Nat.shiftRight_eq_div_pow]; exact BitVec.extractLsb_toNat ..
  have byte2 : (byteAt (rawRecord f) (0 + 2)).toNat = f.xid.toNat / 2 ^ 16 % 256 := by
    rw [← Nat.shiftRight_eq_div_pow]; exact BitVec.extractLsb_toNat ..
  have byte3 : (byteAt (rawRecord f) (0 + 3)).toNat = f.xid.toNat / 2 ^ 24 % 32 := by
    rw [← Nat.shiftRight_eq_div_pow]
    exact (BitVec.toNat_setWidth_of_le (show 28 - 24 + 1 ≤ 8 by decide)).trans (BitVec.extractLsb_toNat ..)
  rw [toNat_canIdOf_readField32, byte0, byte1, byte2, byte3]
  omega

/-- The DLC of the frame's length. -/
theorem headerDlc_rawRecord {f : OutboundFrame} (h : f.len ≤ 64) :
    headerDlc (readField32 (rawRecord f) (0 + 4)) = BitVec.ofNat 4 (lenDlc f.len) := by
  have hdlc := lenDlc_le f.len h
  have byte6 : (byteAt (rawRecord f) (0 + 6)).toNat = lenDlc f.len :=
    (BitVec.toNat_ofNat ..).trans (Nat.mod_eq_of_lt (by omega))
  apply BitVec.eq_of_toNat_eq
  rw [toNat_headerDlc_readField32, byte6, BitVec.toNat_ofNat]

theorem byteAt_rawRecord (f : OutboundFrame) (i : Nat) : byteAt (rawRecord f) (8 + i) = byteAt f.data i := by
  rw [Nat.add_comm]; rfl

theorem slice_rawRecord (f : OutboundFrame) (i j : Nat) : slice (rawRecord f) (8 + i) (8 + j) = slice f.data i j := by
  exact slice_append_right _ f.data i j

/-- The inbound record that a frame of a transfer parses to. -/
def parsedFrame (msb : SubjectRxMsb) (mtu : Nat) (f : OutboundFrame) : InboundFrame :=
  { xid := f.xid
    priority := (unpackId msb f.xid).priority
    kind := (unpackId msb f.xid).kind
    portId := (unpackId msb f.xid).portId
    sourceNodeId := (unpackId msb f.xid).src
    destinationNodeId := (unpackId msb f.xid).dst
    transferId := (decodeTail f.tailByte).transferId
    startBit := (decodeTail f.tailByte).startBit
    endBit := (decodeTail f.tailByte).endBit
    toggle := (decodeTail f.tailByte).toggle
    frameType := frameTypeOf (decodeTail f.tailByte).startBit (decodeTail f.tailByte).endBit
    dlc := BitVec.ofNat 4 (lenDlc f.len)
    payloadLen := BitVec.ofNat 7 (f.len - 1)
    payload := f.body ++ zeros (mtu - (f.len - 1)) }

theorem parseRecord_rawRecord (msb : SubjectRxMsb) {xid : CanId} {tid : BitVec 8} {mtu k n : Nat} {f : OutboundFrame}
    (h : f.AtPlace xid tid mtu k n) (hmtu : mtu ≤ 64) :
    parseRecord msb (rawRecord f) mtu 0 = .ok (parsedFrame msb mtu f) := by
  have hone := h.one_le
  have hle := h.le_mtu
  have hdlc := headerDlc_rawRecord (f := f) (by omega)
  have hlen : dlcLen (BitVec.ofNat 4 (lenDlc f.len)).toNat = f.len := by
    have hmax := lenDlc_le f.len (by omega)
    rw [BitVec.toNat_ofNat, Nat.mod_eq_of_lt (by omega)]
    exact h.quantize_len
  have htail : byteAt (rawRecord f) (0 + 8 + f.len - 1) = f.tailByte := by
    rw [show 0 + 8 + f.len - 1 = 8 + (f.len - 1) by omega, byteAt_rawRecord]
    rfl
  have hpayload : slice (rawRecord f) (0 + 8) (0 + 8 + f.len - 1) = f.body := by
    rw [show 0 + 8 + f.len - 1 = 8 + (f.len - 1) by omega]
    exact slice_rawRecord f 0 (f.len - 1)
  simp only [parseRecord, recordHeader, canIdOf_rawRecord, hdlc, hlen, htail, hpayload]
  exact if_neg (by omega)

/-- One record is a whole input. -/
theorem parseBuffer_rawRecord (msb : SubjectRxMsb) {xid : CanId} {tid : BitVec 8} {mtu k n : Nat} {f : OutboundFrame}
    (h : f.AtPlace xid tid mtu k n) (hmtu : mtu ≤ 64) :
    parseBuffer msb (rawRecord f) mtu = .ok [parsedFrame msb mtu f] := by
  have hlen := rawRecord_length h.data_length
  refine parseBuffer_eq_ok_iff.mpr ⟨by rw [hlen, Nat.mod_self], by rw [hlen, Nat.div_self (by omega)]; rfl,
    fun j hj => ?_⟩
  obtain rfl : j = 0 := Nat.lt_one_iff.mp hj
  rw [Nat.zero_mul]
  exact parseRecord_rawRecord msb h hmtu

/-! ### All frames -/

theorem parseBuffer_rawRecords (msb : SubjectRxMsb) {mtu : Nat} (hmtu : mtu ≤ 64) {fs : List OutboundFrame}
    (h : ∀ f ∈ fs, ∃ xid tid k n, f.AtPlace xid tid mtu k n) :
    parseBuffer msb (fs.flatMap rawRecord) mtu = .ok (fs.map (parsedFrame msb mtu)) := by
  induction fs with
  | nil => exact parseBuffer_nil msb mtu
  | cons f fs ih =>
    obtain ⟨⟨xid, tid, k, n, hf⟩, hfs⟩ := List.forall_mem_cons.mp h
    have hwhole : (rawRecord f).length % (mtu + 8) = 0 := by rw [rawRecord_length hf.data_length, Nat.mod_self]
    exact parseBuffer_append_of_ok hwhole (parseBuffer_rawRecord msb hf hmtu) (ih hfs)

/-- The routing fields of a transfer's identifier, an anonymous source and a Message destination read as 0xFF
(42_can_id.md R148, R150). -/
theorem unpackId_of_makeCanId (msb : SubjectRxMsb) {priority : BitVec 3} {k : TransferKind} {portId : BitVec 16}
    {remote : BitVec 8} {payload : List Byte} {loc : BitVec 8} {mtu : BitVec 7} {xid : CanId}
    (h : makeCanId priority k portId remote payload loc mtu = .ok xid) :
    unpackId msb xid = ⟨priority, k, portId, if loc.toNat ≤ 127 then loc else 0xFF,
      if k = .message then 0xFF else remote⟩ := by
  obtain ⟨hvalid, hanonymous⟩ := identifiersRoundTrip msb priority k portId remote payload loc mtu xid h
  by_cases hloc : loc.toNat ≤ 127
  · rw [hvalid hloc, if_pos hloc]
  · have hunset : 128 ≤ loc.toNat := by omega
    obtain rfl := eq_message_of_anonymous hunset h
    rw [hanonymous hunset, if_neg hloc, if_pos rfl]

/-- Settles O56: each frame is at its place, so its record parses to `parsedFrame`, whose routing fields are the round
trip of the identifier and whose flags are the sequence law. -/
theorem createdFramesParseBack : Obligations.CreatedFramesParseBack := by
  unfold Obligations.CreatedFramesParseBack
  intro msb prio k portId remote tid payload loc mtu fs hmtu hfs
  obtain ⟨xid, hxid⟩ := makeCanId_of_createPacket_eq_ok hfs
  have hplace := createPacket_atPlace hmtu hxid hfs
  refine ⟨fs.map (parsedFrame msb mtu.toNat), parseBuffer_rawRecords msb (legalMtu_range hmtu).2 fun f hf => ?parse,
    List.length_map .., fun j hj _ => ?fields⟩
  case parse =>
    obtain ⟨j, hj, rfl⟩ := List.mem_iff_getElem.mp hf
    exact ⟨xid, tid, j, fs.length, hplace j hj⟩
  case fields =>
    rw [List.getElem_map, parsedFrame, (hplace j hj).decodeTail_tailByte, (hplace j hj).xid_eq,
      unpackId_of_makeCanId msb hxid]

end Sys2Proof.Machine

namespace Sys2Proof.Machine

/-! ## Every step keeps the state legal (10_state.md R22 to R26) -/

/-- The clauses of `State.Inv` that do not speak of STATUS, RES and OUT. -/
structure State.RegistersLegal (s : State) : Prop where
  cfg_wf : s.cfg.wf
  mtu_legal : legalMtu s.mtu.toNat = true
  tid_lt : s.tid.toNat < tidModulus s.cfg.tidModulus

/-- The clauses of `State.Inv` about the records of OUT, under given parameters and MTU. -/
structure RecordsLegal (c : Config) (mtu : Nat) (out : List OutRecord) : Prop where
  one_kind : (∀ r ∈ out, r.isOutbound = true) ∨ (∀ r ∈ out, r.isOutbound = false)
  records_wf : ∀ r ∈ out, r.wf c mtu = true
  capacity : out.length ≤ c.outCap

theorem State.Inv.registersLegal {s : State} (h : s.Inv) : s.RegistersLegal := ⟨h.cfg_wf, h.mtu_legal, h.tid_lt⟩

theorem recordsLegal_nil (c : Config) (mtu : Nat) : RecordsLegal c mtu [] :=
  ⟨.inl (List.forall_mem_nil _), List.forall_mem_nil _, Nat.zero_le _⟩

theorem State.RegistersLegal.succeed {s : State} (h : s.RegistersLegal) {out : List OutRecord}
    (hout : RecordsLegal s.cfg s.mtu.toNat out) (res : BitVec 64) : (s.succeed res out).Inv :=
  ⟨h.cfg_wf, h.mtu_legal, h.tid_lt, Nat.zero_le 7, fun hfail => absurd rfl hfail, hout.one_kind, hout.records_wf,
    hout.capacity⟩

theorem State.RegistersLegal.fail {s : State} (h : s.RegistersLegal) (e : ErrorKind) : (s.fail e).Inv :=
  have hout := recordsLegal_nil s.cfg s.mtu.toNat
  ⟨h.cfg_wf, h.mtu_legal, h.tid_lt, (errorCode_range e).2, fun _ => ⟨rfl, rfl⟩, hout.one_kind, hout.records_wf,
    hout.capacity⟩

/-- The host's moves are no part of the invariant. -/
theorem State.Inv.retire {s : State} (h : s.Inv) : s.retire.Inv := { h with }

theorem tidModulus_pos (m : TidModulus) : 0 < tidModulus m := by cases m <;> decide

/-- A reset leaves a legal state whatever it found, under permitted parameters (70_reset_and_hazards.md R300). -/
theorem State.takeReset_inv {s : State} (h : s.cfg.wf) : s.takeReset.Inv := by
  have hregisters : s.takeReset.RegistersLegal := ⟨h, rfl, tidModulus_pos s.cfg.tidModulus⟩
  exact hregisters.succeed (recordsLegal_nil _ _) 0

/-- Settles O4: `State.reset` is a reset under the default parameters, which are permitted ones. -/
theorem resetStateIsLegal : Obligations.ResetStateIsLegal := by
  unfold Obligations.ResetStateIsLegal
  exact State.takeReset_inv (s := State.reset) (by decide)

/-! ### The records of an answer -/

/-- A frame at its place has the shape of an outbound record (30_encoding.md R97). -/
theorem OutboundFrame.AtPlace.wf {xid : CanId} {tid : BitVec 8} {mtu k n : Nat} {f : OutboundFrame}
    (h : f.AtPlace xid tid mtu k n) : f.wf mtu = true := by
  simp only [OutboundFrame.wf, h.one_le, h.le_mtu, h.data_length, h.drop_len, allZero_zeros, decide_true, Bool.and_self]

/-- Full frames of at least seven bytes: R7's bound on OUT_CAP covers every count of frames. -/
theorem frameCount_le {n p : Nat} (hp : 7 ≤ p) : frameCount n p ≤ (n + 2 + 6) / 7 := by
  by_contra hmore
  have hlt := (lt_frameCount_iff (by omega)).mp (Nat.not_le.mp hmore)
  have hmul : (n + 2 + 6) / 7 * 7 ≤ (n + 2 + 6) / 7 * p := Nat.mul_le_mul_left _ hp
  omega

theorem createPacket_recordsLegal {c : Config} (hc : c.wf) {priority : BitVec 3} {k : TransferKind} {portId : BitVec 16}
    {remote tid : BitVec 8} {payload : List Byte} {loc : BitVec 8} {mtu : BitVec 7} {fs : List OutboundFrame}
    (hmtu : legalMtu mtu.toNat = true) (hlen : payload.length ≤ c.ibufCap)
    (h : createPacket priority k portId remote tid payload loc mtu = .ok fs) :
    RecordsLegal c mtu.toNat (fs.map OutRecord.outbound) := by
  obtain ⟨xid, hxid⟩ := makeCanId_of_createPacket_eq_ok h
  refine ⟨.inl ?kind, ?shape, ?capacity⟩
  case kind => exact List.forall_mem_map.mpr fun _ _ => rfl
  case shape =>
    refine List.forall_mem_map.mpr fun f hf => ?_
    obtain ⟨j, hj, rfl⟩ := List.mem_iff_getElem.mp hf
    exact (createPacket_atPlace hmtu hxid h j hj).wf
  case capacity =>
    obtain ⟨-, -, -, hcap⟩ := hc
    have hcount := frameCount_le (n := payload.length) (presentationMtu_spec hmtu).1
    rw [List.length_map, createPacket_length hmtu h]
    split <;> omega

/-- The shape of an inbound record, clause by clause (30_encoding.md R98). -/
theorem InboundFrame.wf_iff {msb : SubjectRxMsb} {mtu : Nat} {f : InboundFrame} :
    f.wf msb mtu = true ↔ f.payload.length = mtu ∧ allZero (f.payload.drop f.payloadLen.toNat) = true ∧
      f.payloadLen.toNat + 1 = dlcLen f.dlc.toNat ∧ dlcLen f.dlc.toNat ≤ mtu ∧
      unpackId msb f.xid = ⟨f.priority, f.kind, f.portId, f.sourceNodeId, f.destinationNodeId⟩ ∧
      f.frameType = frameTypeOf f.startBit f.endBit := by
  simp only [InboundFrame.wf, Bool.and_eq_true, decide_eq_true_eq, and_assoc]

/-- A record that parses has the shape of an inbound record, if it lies inside the input. -/
theorem parseRecord_wf {msb : SubjectRxMsb} {ib : List Byte} {mtu b : Nat} {r : InboundFrame}
    (hinside : b + (mtu + 8) ≤ ib.length) (h : parseRecord msb ib mtu b = .ok r) : r.wf msb mtu = true := by
  obtain ⟨hbad, hgood⟩ := parseRecordReadsTheRecordFields msb ib mtu b hinside
  by_cases hlegal : 1 ≤ declaredLen ib b ∧ declaredLen ib b ≤ mtu
  case neg =>
    have hillegal : declaredLen ib b = 0 ∨ mtu < declaredLen ib b := by omega
    rw [hbad hillegal] at h
    cases h
  obtain ⟨hone, hle⟩ := hlegal
  obtain ⟨r', hr', -, hdlc, hunpack, -, htype, hlen, hpayload⟩ := hgood hone hle
  obtain rfl : r = r' := Except.ok.inj (h.symm.trans hr')
  have hdeclared : dlcLen r.dlc.toNat = declaredLen ib b := congrArg dlcLen hdlc
  rw [hdeclared] at hlen hpayload
  have hslice : (slice ib (b + 8) (b + 8 + declaredLen ib b - 1)).length = declaredLen ib b - 1 := by
    rw [slice_length _ _ _ (by omega)]
    omega
  refine InboundFrame.wf_iff.mpr ⟨?buffer, ?rest, ?length, hdeclared.trans_le hle, hunpack, htype⟩
  case buffer =>
    rw [hpayload, List.length_append, hslice, zeros_length]
    omega
  case rest => rw [hpayload, hlen, List.drop_left' hslice, allZero_zeros]
  case length =>
    rw [hlen, hdeclared]
    omega

theorem parseBuffer_recordsLegal {c : Config} (hc : c.wf) {ib : List Byte} {mtu : Nat} {rs : List InboundFrame}
    (hmtu : legalMtu mtu = true) (hlen : ib.length ≤ c.ibufCap)
    (h : parseBuffer c.subjectRxMsb ib mtu = .ok rs) : RecordsLegal c mtu (rs.map OutRecord.inbound) := by
  obtain ⟨hmod, hcount, hall⟩ := parseBuffer_eq_ok_iff.mp h
  obtain ⟨hlow, -⟩ := legalMtu_range hmtu
  refine ⟨.inr ?kind, ?shape, ?capacity⟩
  case kind => exact List.forall_mem_map.mpr fun _ _ => rfl
  case shape =>
    refine List.forall_mem_map.mpr fun r hr => ?_
    obtain ⟨j, hj, rfl⟩ := List.mem_iff_getElem.mp hr
    refine parseRecord_wf ?_ (hall j hj)
    rw [← Nat.succ_mul]
    exact (Nat.mul_le_mul_right _ (by omega)).trans_eq (Nat.div_mul_cancel (Nat.dvd_of_mod_eq_zero hmod))
  case capacity =>
    obtain ⟨-, -, hcap, -⟩ := hc
    rw [List.length_map, hcount]
    calc ib.length / (mtu + 8) ≤ c.ibufCap / 16 := Nat.div_le_div hlen (by omega) (by decide)
      _ ≤ c.outCap := hcap

theorem out_of_scalarAnswer {r : Except ErrorKind (BitVec 64)} {v : BitVec 64 × List OutRecord}
    (h : scalarAnswer r = .ok v) : v.2 = [] := by
  cases r with
  | ok x => cases h; rfl
  | error e => cases h

theorem framesAnswer_recordsLegal {c : Config} (hc : c.wf) {priority : BitVec 3} {k : TransferKind}
    {portId : BitVec 16} {remote tid : BitVec 8} {payload : List Byte} {loc : BitVec 8} {mtu : BitVec 7}
    {v : BitVec 64 × List OutRecord} (hmtu : legalMtu mtu.toNat = true) (hlen : payload.length ≤ c.ibufCap)
    (h : framesAnswer (createPacket priority k portId remote tid payload loc mtu) = .ok v) :
    RecordsLegal c mtu.toNat v.2 := by
  cases hfs : createPacket priority k portId remote tid payload loc mtu with
  | ok fs =>
    rw [hfs] at h
    cases h
    exact createPacket_recordsLegal hc hmtu hlen hfs
  | error e => rw [hfs] at h; cases h

theorem recordsAnswer_recordsLegal {c : Config} (hc : c.wf) {ib : List Byte} {mtu : Nat}
    {v : BitVec 64 × List OutRecord} (hmtu : legalMtu mtu = true) (hlen : ib.length ≤ c.ibufCap)
    (h : recordsAnswer (parseBuffer c.subjectRxMsb ib mtu) = .ok v) : RecordsLegal c mtu v.2 := by
  cases hrs : parseBuffer c.subjectRxMsb ib mtu with
  | ok rs =>
    rw [hrs] at h
    cases h
    exact parseBuffer_recordsLegal hc hmtu hlen hrs
  | error e => rw [hrs] at h; cases h

/-- The records of a successful command are legal; only frames and parsed records are any. -/
theorem answer_recordsLegal {i : Instr} {s : State} {v : BitVec 64 × List OutRecord} (h : s.RegistersLegal)
    (hlen : s.ib.length ≤ s.cfg.ibufCap) (hanswer : answer i s = .ok v) :
    RecordsLegal s.cfg s.mtu.toNat v.2 := by
  have none (hnil : v.2 = []) : RecordsLegal s.cfg s.mtu.toNat v.2 := hnil ▸ recordsLegal_nil _ _
  cases i with
  | crcUpdate | decodeTail | unpackId | setNodeId | readState => cases hanswer; exact none rfl
  | crcCompute | dlcToLen | lenToDlc | roundUpLen | makeMessageId | makeServiceId | makeTail =>
    exact none (out_of_scalarAnswer hanswer)
  | makeCanId loc remote portId priority kind =>
    rw [answer] at hanswer
    split at hanswer
    case h_1 => cases hanswer
    case h_2 => exact none (out_of_scalarAnswer hanswer)
  | createPacket tid remote portId priority kind =>
    rw [answer] at hanswer
    split at hanswer
    case h_1 => cases hanswer
    case h_2 => exact framesAnswer_recordsLegal h.cfg_wf h.mtu_legal hlen hanswer
  | sendMessage | sendRequest | sendResponse =>
    exact framesAnswer_recordsLegal h.cfg_wf h.mtu_legal hlen hanswer
  | parseBuffer => exact recordsAnswer_recordsLegal h.cfg_wf h.mtu_legal hlen hanswer
  | init node mtu =>
    rw [answer] at hanswer
    split at hanswer <;> cases hanswer
    exact none rfl

/-- The registers a successful command writes are legal, and INIT, the one that changes MTU, leaves no record. -/
theorem State.RegistersLegal.written {i : Instr} {s : State} {v : BitVec 64 × List OutRecord} (h : s.RegistersLegal)
    (hanswer : answer i s = .ok v) :
    (s.written i).RegistersLegal ∧ ((s.written i).mtu = s.mtu ∨ v.2 = []) := by
  cases i with
  | init node mtu =>
    have hlegal := legalMtu_of_answer_init hanswer
    refine ⟨⟨h.cfg_wf, ?_, tidModulus_pos s.cfg.tidModulus⟩, .inr ?_⟩
    · exact (congrArg legalMtu (toNat_setWidth_of_mem_legalMtus (List.contains_iff_mem.mp hlegal))).trans hlegal
    · rw [answer, if_pos hlegal] at hanswer
      cases hanswer
      rfl
  | sendMessage | sendRequest | sendResponse =>
    exact ⟨⟨h.cfg_wf, h.mtu_legal, (toNat_nextTid _ _).trans_lt (Nat.mod_lt _ (tidModulus_pos _))⟩, .inl rfl⟩
  | _ => exact ⟨⟨h.cfg_wf, h.mtu_legal, h.tid_lt⟩, .inl rfl⟩

/-- Every command whose input the port admits leaves a legal state. -/
theorem State.conclude_inv {i : Instr} {s : State} (h : s.Inv) (hlen : s.ib.length ≤ s.cfg.ibufCap) :
    (s.conclude i (answer i s)).Inv := by
  cases hanswer : answer i s with
  | error e => exact h.registersLegal.fail e
  | ok v =>
    obtain ⟨hregisters, hmtu | hnil⟩ := h.registersLegal.written hanswer
    · have hout := answer_recordsLegal h.registersLegal hlen hanswer
      rw [← hmtu, ← s.written_cfg i] at hout
      exact hregisters.succeed hout v.1
    · exact hregisters.succeed (hnil ▸ recordsLegal_nil _ _) v.1

/-- Settles O5: each branch of `step` keeps the invariant: idling, a reset, a command by `State.conclude_inv`, and a
rejected word, which is an error. -/
theorem everyStepKeepsTheStateLegal : Obligations.EveryStepKeepsTheStateLegal := by
  unfold Obligations.EveryStepKeepsTheStateLegal
  intro s t h hstep
  obtain ⟨-, rfl⟩ | ⟨-, -, rfl⟩ | ⟨cw, ib, rest, i, u, hport, hlen, -, hexec, rfl⟩ | ⟨-, -, -, -, -, -, -, rfl⟩ :=
    step_cases hstep
  case inl => exact h
  case inr.inl => exact State.takeReset_inv h.cfg_wf
  case inr.inr.inl =>
    obtain rfl := exec_eq_next_iff.mp hexec
    have hib : s.ib = ib := by rw [State.ib, hport]
    exact (State.conclude_inv h (hib ▸ hlen)).retire
  case inr.inr.inr => exact (h.registersLegal.fail _).retire

end Sys2Proof.Machine
